-- ==== Sys2Proof/Word.lean ====
section
/-! DEFINITION. The word types of the Hadwen 7610 model. Bit vectors stand only for what the manual treats as bits:
register contents, wrapping counts, axis positions (32-bit, R1 and section 1.8 of 00_scope.md), host addresses, bytes. -/

namespace Sys2Proof

/-- One byte of a record, frame, telegram or pixel stream. -/
abbrev Byte := BitVec 8

/-- A 16-bit field. -/
abbrev Half := BitVec 16

/-- A 32-bit field: axis positions, cycle numbers, sequences, wrapping counts. -/
abbrev Word := BitVec 32

/-- A 64-bit host memory address. -/
abbrev Addr := BitVec 64

/-- Local time: a 64-bit count of nanoseconds (R1). -/
abbrev Time := BitVec 64

/-- A ring node address, 0 to 31 (00_scope.md, 1.2). -/
abbrev NodeAddr := Fin 32

end Sys2Proof
end

