-- ==== Sys2Proof/Config.lean ====
section
/-! DEFINITION. What one implementation fixes. The times are the manual's own; `revision` is a free value: the manual gives
IDENT a revision field (R175, 11.2) and no value for it, so nothing in Lean can say what it is. -/

namespace Sys2Proof.Config

/-- The revision byte of IDENT (11.2). A free value: log entry 1. -/
opaque revision : Byte

/-- The part code of IDENT (11.2). -/
def partCode : Half := 0x7610

/-- The format code of the window header (11.3). -/
def formatCode : Half := 0x0B01

/-- Start delimiter in to start delimiter out, in ns (R64). -/
def repeatDelay : Nat := 480

/-- The wrap turn, in ns (section 4.1). -/
def wrapTurn : Nat := 320

/-- Start delimiter and header, in ns (section 4.1). -/
def headerTime : Nat := 136

/-- The 32 slots of a BEAT begin behind its start delimiter, its header and the first 24 bytes of its payload (section 4.1,
11.6), in ns. -/
def beatSlotsAt : Nat := 328

/-- One 8-byte slot of a BEAT takes 64 ns. -/
def beatSlotTime : Nat := 64

/-- One symbol, in ns (section 4.1). -/
def symbolTime : Nat := 8

/-- The gap of 8 idle symbols between frames, in ns (section 4.1, R66). -/
def frameGap : Nat := 64

/-- The largest payload of a ring frame, in bytes (R63). -/
def maxPayload : Nat := 1024

/-- The hop count at which a frame is removed (R64). -/
def maxHops : Nat := 64

/-- Places of the forwarding store (R67). -/
def storePlaces : Nat := 4

/-- A PROBE fails this long after its launch, in ns (R78). -/
def probeTimeout : Nat := 100000

/-- A port must have been UP this long for a rejoin or a heal, in ns (R81, R82). -/
def healUpTime : Nat := 100000000

/-- Entries of the trip table (R87). -/
def tableSize : Nat := 32

/-- Bursts of the trip transmit queue (R94). -/
def burstQueueSize : Nat := 16

/-- The burst age at which a remote entry expires (R98). -/
def expiryAge : Nat := 2048

/-- One exchange slot of the drive line timetable, in ns (R49). -/
def slotTime : Nat := 12000

/-- A SETPOINT or ACTUAL telegram, in ns (section 3.1). -/
def setpointTime : Nat := 4800

/-- A SYNC telegram, in ns (section 3.1). -/
def syncTime : Nat := 1200

/-- One character of the drive line, in ns (section 3.1). -/
def characterTime : Nat := 200

/-- 20 bit times of idle, in ns (R44). -/
def lineIdle : Nat := 400

/-- The reply window, in ns (R50). -/
def replyWindow : Nat := 2000

/-- The latest end of a reply within its slot, in ns (R50). -/
def replyLimit : Nat := 11600

/-- The longest wait for an idle drive line, in ns (R51). -/
def lineWait : Nat := 5000

/-- Triggers that the trigger plan holds (R116). -/
def planSize : Nat := 256

/-- Triggers that the outstanding-trigger queue holds (R118). -/
def outstandingSize : Nat := 4

/-- Bytes of a camera FIFO (R123). -/
def cameraFifoSize : Nat := 8192

/-- Bytes of the ring-in buffer (R185). -/
def ringInSize : Nat := 2048

/-- Bytes of the screen FIFO (R173). -/
def screenFifoSize : Nat := 4096

/-- The largest transaction of the Memory Port, and the boundary it does not cross, in bytes (R186). -/
def transactionSize : Nat := 256

end Sys2Proof.Config
end

