-- ==== Sys2Proof/Syntax.lean ====
section
/-! DEFINITION. The commands and events of the part, one constructor of `Instr` for each row of spec/opcode_table.json, with
the data that the outside world brings with it. A frame that ends intact on the primary input brings the time of its start
delimiter and its header, by which the RI decides on its delivery (R69). A host command's parameters stay the raw fields of
11.4, so that every range check of its chapter is the part's own. An event that happens at a time carries that local time; read
data that host memory returns come in as operands (log entries 2, 3 and 5). -/

namespace Sys2Proof

/-- Node states (R13). -/
inductive NodeState | config | joining | online | holdover | isolated | passive
deriving DecidableEq, Repr

/-- Line states (R12). -/
inductive LineState | standstill | running | stopping | halted | torqueOff
deriving DecidableEq, Repr

/-- Trip levels, NONE < NOTE < STOP < CUT (R85). -/
inductive Level | none | note | stop | cut
deriving DecidableEq, Repr

/-- Trip classes (R85). -/
inductive TripClass | note | stop | cut
deriving DecidableEq, Repr

/-- Cycle periods by their period code (R2, R188). -/
inductive Period | us125 | us250 | us500 | us1000
deriving DecidableEq, Repr

/-- Ring modes (R62, R81). -/
inductive RingMode | through | wrapA | wrapB | alone
deriving DecidableEq, Repr

/-- Port receive states (R61). -/
inductive PortState | dark | syncing | up
deriving DecidableEq, Repr

/-- Trip kinds (R86). -/
inductive TripKind
  | input | channel | web | beatLost | nodeMissing | ringWrap | duplicate | command | window
deriving DecidableEq, Repr

/-- The state a burst reports (R93). -/
inductive BurstState | active | latched | cleared
deriving DecidableEq, Repr

/-- Result codes of a cell (R180). -/
inductive ResultCode
  | ok | unknown | badParam | wrongState | busy | tripped | notMaster | noSuch | stillPresent | cancelled
deriving DecidableEq, Repr

/-- The six requesters of the Memory Port (R185). -/
inductive Requester | screen | camera0 | camera1 | ringIn | window | ringOut
deriving DecidableEq, Repr

/-- A ring port: 0 is port A, 1 is port B, as the RING_WRAP index numbers them (R86). -/
abbrev Port := Fin 2

/-- Port A, toward the upstream neighbour. -/
def portA : Port := 0

/-- Port B, toward the downstream neighbour. -/
def portB : Port := 1

/-! ### Frames (11.6) -/

/-- One node's 8-byte slot of a beat (R71). Its node state, level and mode are codes of their tables (log entry 82); `spare` is its
three further bytes, which a node writes as 0 and repeats in the slots of others as they came (R64). -/
structure Slot where
  mark : Byte := 0
  nodeState : NodeState := .config
  level : Level := .none
  entries : Byte := 0
  mode : RingMode := .through
  spare : BitVec 24 := 0
deriving DecidableEq, Repr

/-- The payload of a BEAT (section 4.3, 11.6). `v` is signed. `heal` is bit 0 of its flags byte and `flags` the seven bits above,
which have no meaning and are repeated as they came (R64). DESIGN CHOICE (log entry 82): its line state, trip level and period
are codes of their tables, since the spec gives an intact BEAT with another code no meaning. -/
structure Beat where
  cycle : Word
  theta : Word
  v : Word
  lineState : LineState
  level : Level
  period : Period
  heal : Bool
  flags : BitVec 7 := 0
  lateness : Word
  transit : Word
  slots : Vector Slot 32
deriving DecidableEq, Repr

/-- The payload of a TRIP burst as received: raw bytes, since R190 has the TC test their ranges. -/
structure Burst where
  source : Byte
  kind : Byte
  index : Byte
  cls : Byte
  state : Byte
  flags : Byte
  sequence : Byte
  count : Byte
  cycle : Word
  position : Word
deriving DecidableEq, Repr

/-- The payload of a VIEW frame: segment header and pixel bytes (R151). `spare` is the two bytes ahead of the pixels, which a
sender leaves 0 and a repeater passes on (11.6, R64). -/
structure Segment where
  source : Byte
  view : Byte
  sequence : Word
  repeatNo : Half
  w : Half
  h : Half
  index : Half
  count : Half
  pixelBytes : Half
  spare : Half := 0
  pixels : List Byte
deriving DecidableEq, Repr

/-- A frame's payload by kind (R63, R190); `other` is a kind code that is none of the five. DESIGN CHOICE (log entry 91): a payload
of the five kinds has the layout of 11.6 whatever length the header gives. -/
inductive Payload
  | beat (b : Beat)
  | trip (b : Burst)
  | view (g : Segment)
  | probe (number : Byte)
  | probeReply (number : Byte) (turnaround : Word)
  | other (kind : Byte) (bytes : List Byte)
deriving DecidableEq, Repr

/-- A frame header but for its kind (R63, R190). `length` is the payload length it gives, `rest` its bytes 6 to 15. -/
structure FrameHead where
  hop : Byte
  source : Byte
  dest : Byte
  length : Half
  rest : Vector Byte 10 := Vector.replicate 10 0
deriving DecidableEq, Repr

/-- A ring frame: its header and its payload, which gives the kind. -/
structure Frame extends FrameHead where
  payload : Payload
deriving DecidableEq, Repr

/-- An intact frame on the primary input: the time of its start delimiter, its header and what its kind carries (R61, R69). -/
structure Delivered (α : Type) extends FrameHead where
  sd : Time
  body : α
deriving DecidableEq, Repr

/-- A frame that begins on a receive fibre: the time of its start delimiter and its kind (R61, R62). -/
structure FrameStart where
  sd : Time
  kind : Byte
deriving DecidableEq, Repr

/-- How a frame's reception ended (R63). `cut` is a reception ended by its port going DARK. -/
inductive FrameEnd | normal | error | cut
deriving DecidableEq, Repr

/-- A frame as received: the bytes between the delimiters, what ended it, and whether an invalid symbol stood in it. -/
structure Reception where
  bytes : List Byte
  ending : FrameEnd
  invalidSymbol : Bool
deriving DecidableEq, Repr

/-! ### Parameters of the host commands (11.4) -/

structure SetCycleP where
  code : Byte
  pIn : Half
  pCo : Half
  pIs : Half
deriving DecidableEq, Repr

structure SetHoldoverP where
  lead : Byte
  limit : Byte
deriving DecidableEq, Repr

structure SetLineLimitsP where
  vMax : Word
  vRev : Word
  aUp : Half
  aDown : Half
  aStop : Half
deriving DecidableEq, Repr

/-- `n` is signed. -/
structure SetSectionP where
  sect : Byte
  n : Half
  m : Half
  base : Word
  trimStep : Half
  k : Half
  maxStep : Word
  g : Half
  jogLimit : Word
  torqueLimit : Half
deriving DecidableEq, Repr

/-- `sect` 0xFF is "none". -/
structure AssignChannelP where
  channel : Byte
  sect : Byte
  address : Byte
  followLimit : Word
  followCount : Byte
  missLimit : Byte
  cls : Byte
deriving DecidableEq, Repr

structure TorqueP where
  sect : Byte
  on : Byte
deriving DecidableEq, Repr

/-- `demand` is signed. -/
structure JogP where
  sect : Byte
  demand : Word
deriving DecidableEq, Repr

/-- `target` 0 is a section, 1 a channel; `value` is signed. -/
structure TrimP where
  target : Byte
  number : Byte
  relative : Byte
  value : Word
deriving DecidableEq, Repr

structure SetTripInputP where
  input : Byte
  disable : Byte
  cls : Byte
  tripsLow : Byte
  debounce : Byte
deriving DecidableEq, Repr

structure RaiseTripP where
  index : Byte
  cls : Byte
deriving DecidableEq, Repr

structure ClearTripP where
  source : Byte
  kind : Byte
  index : Byte
deriving DecidableEq, Repr

structure SetStreamP where
  stream : Byte
  decimation : Byte
  threshold : Byte
  webClass : Byte
  rowPixels : Half
  pitch : Half
  phase : Word
  minPeriod : Half
  rowTimeout : Half
  webRows : Half
deriving DecidableEq, Repr

structure SetPoolP where
  pool : Byte
  count : Byte
  notify : Byte
deriving DecidableEq, Repr

/-- The configuration group of one descriptor, as a SET_POOL scan read it from the window (R131, R179). -/
structure DescRead where
  address : Addr
  capacity : Half
  stride : Half
deriving DecidableEq, Repr

structure SetViewP where
  view : Byte
  pool : Byte
  dest : Byte
  dx : Byte
  dy : Byte
  mean : Byte
  x0 : Half
  y0 : Half
  w : Half
  h : Half
  segSize : Half
deriving DecidableEq, Repr

structure SetViewAllowanceP where
  allowance : Half
  quiet : Byte
deriving DecidableEq, Repr

structure SetReceiveP where
  pool : Byte
  bind : Byte
  source : Byte
  view : Byte
  timeout : Half
deriving DecidableEq, Repr

structure SetScreenP where
  width : Half
  height : Half
  clock : Byte
  hFront : Byte
  hSync : Byte
  hBack : Byte
  vFront : Byte
  vSync : Byte
  vBack : Byte
  red : Byte
  green : Byte
  blue : Byte
deriving DecidableEq, Repr

structure SetPaneP where
  pane : Byte
  enable : Byte
  host : Byte
  pool : Byte
  incomplete : Byte
  tint : Byte
  zoom : Byte
  bufA : Addr
  bufB : Addr
  hostStride : Half
  hostWidth : Half
  hostRows : Half
  x : Half
  y : Half
  w : Half
  h : Half
  sx : Half
  sy : Half
deriving DecidableEq, Repr

structure LoadPaletteP where
  palette : Byte
  address : Addr
deriving DecidableEq, Repr

structure SetBacklightP where
  code : Byte
  square : Byte
  alarmMin : Byte
deriving DecidableEq, Repr

structure SetMemoryOrderP where
  camerasFirst : Byte
  camLow : Byte
  camHigh : Byte
  scrLow : Byte
  scrUrgent : Byte
deriving DecidableEq, Repr

/-- A host command as the board carries it: its code and its parameters (11.4). `unknown` is a code that names none. -/
inductive BoardCmd
  | setCycle (p : SetCycleP)
  | setHoldover (p : SetHoldoverP)
  | setLineSpeed (demand : Word)
  | setLineLimits (p : SetLineLimitsP)
  | setSection (p : SetSectionP)
  | assignChannel (p : AssignChannelP)
  | torque (p : TorqueP)
  | engage (sect : Byte)
  | disengage (sect : Byte)
  | jog (p : JogP)
  | trim (p : TrimP)
  | clearChannelFault (channel : Byte)
  | forgetNode (address : Byte)
  | ringHeal
  | setTripInput (p : SetTripInputP)
  | raiseTrip (p : RaiseTripP)
  | releaseTrip (index : Byte)
  | clearTrip (p : ClearTripP)
  | lineRearm
  | setStream (p : SetStreamP)
  | startStream (stream : Byte)
  | stopStream (stream : Byte)
  | setPool (p : SetPoolP) (descs : List DescRead)
  | setView (p : SetViewP)
  | startView (view : Byte)
  | stopView (view : Byte)
  | setViewAllowance (p : SetViewAllowanceP)
  | setReceive (p : SetReceiveP)
  | setScreen (p : SetScreenP)
  | screenEnable (on : Byte)
  | setPane (p : SetPaneP)
  | flipPane (pane : Byte)
  | loadPalette (p : LoadPaletteP)
  | setBacklight (p : SetBacklightP)
  | setMemoryOrder (p : SetMemoryOrderP)
  | unknown (code : Byte)
deriving DecidableEq, Repr

/-- One cell of the board read (R179): the 48 bytes read, and for a SET_POOL cell the descriptors read with it. -/
structure CellImage where
  state : Byte
  code : Byte
  tag : Half
  params : List Byte
  descs : List DescRead
deriving DecidableEq, Repr

/-- A register, or register bits, whose write has no behaviour of its own (R188, 11.2). -/
inductive OtherReg | ident | nodectlUnnamed | attnUnnamed | winbaseLow | unmapped
deriving DecidableEq, Repr

/-- The transaction that a bus error ends, by requester (R186): for a write of a camera or of ring-in its place among those on
their way, oldest first; for a source read its place among the reads of the prepared segment, beyond them for a read of a
segment given up. -/
inductive BusErr
  | camera (u : Fin 2) (write : Nat)
  | ringIn (write : Nat)
  | ringOut (view : Fin 4) (read : Nat)
  | screenPane
  | screenPalette (palette : Fin 2)
  | window
deriving DecidableEq, Repr

/-- The rows of spec/opcode_table.json. -/
inductive Instr
  -- resets and register writes
  | powerOnReset (addr : NodeAddr) (master : Bool)
  | nodeReset
  | nodeResetEnd (now : Time)
  | runWrite
  | runClearWrite
  | resetClearWrite
  | attentionMaskWrite (mask : BitVec 6)
  | winbaseWrite (value : Addr)
  | attnClear (ones : BitVec 6)
  | registerWriteOther (reg : OtherReg)
  -- the cycle
  | cycleStart (now : Time)
  | intake (now : Time) (tin : Byte)
  | inputDebounce (input : Fin 8)
  | compute (now : Time) (lineFree : Time)
  | enterIsolated
  | expiry
  | receiveTimeout (pool : Fin 4)
  | issue (now : Time)
  | sync (now : Time) (idle : Bool)
  | quietWindowStart (now : Time)
  -- frames on the ring
  | beatArrival (sd : Time) (now : Time) (tin : Byte) (lineFree : Time) (h : FrameHead) (b : Beat)
  | returningBeat (d : Delivered Beat)
  | nodeMissing (address : NodeAddr)
  | healRunComplete
  | trip (d : Delivered Burst)
  | segmentDelivery (d : Delivered Segment)
  | probe (port : Port) (sd : Time) (source : NodeAddr) (number : Byte)
  | probeReply (port : Port) (sd : Time) (number : Byte) (turnaround : Word)
  | probeFailed (port : Port) (now : Time)
  | damagedFrame (input : Option Port) (sd : Time) (rx : Reception)
  | primaryRepeat (sd : Time) (f : Frame)
  | secondaryPass (sd : Time) (f : Frame)
  | transmitterDecision (now : Time)
  | secondaryTransmit (port : Port) (now : Time)
  | portDark (port : Port) (now : Time)
  | portSyncing (port : Port)
  | portUp (port : Port) (now : Time)
  -- the drive line
  | setpoint (now : Time)
  | replyWindowClose (now : Time)
  | replyAbort (now : Time)
  | actual (now : Time) (bytes : List Byte) (stopBitError : Bool)
  -- capture
  | triggerFire (u : Fin 2) (now : Time)
  | rowTimeout (u : Fin 2) (now : Time)
  | rowBegin (u : Fin 2)
  | rowEnd (u : Fin 2)
  | webStateChange (u : Fin 2)
  -- pools and views
  | fillTargetChoice (pool : Fin 6) (holds : List Byte)
  | frameCompletion (pool : Fin 6)
  | segmentReady (view : Fin 4) (cells : List (List Byte))
  -- the screen
  | screenFrameStart
  | activeEnd
  | paletteReadDone (palette : Fin 2) (data : List Byte)
  -- memory port and window
  | grant
  | busError (what : BusErr)
  | boardScan (cells : List CellImage)
  | finalWrite (cell : Fin 16)
  | publishPageLanded
  | publishEnd
  | mirrorRewriteEnd
  | descriptorStateWrite (pool : Fin 6) (buffer : Fin 8)
  -- host commands, each taken from one POSTED cell
  | unknown (cell : Fin 16) (tag : Half) (code : Byte)
  | setCycle (cell : Fin 16) (tag : Half) (p : SetCycleP)
  | setHoldover (cell : Fin 16) (tag : Half) (p : SetHoldoverP)
  | setLineSpeed (cell : Fin 16) (tag : Half) (demand : Word)
  | setLineLimits (cell : Fin 16) (tag : Half) (p : SetLineLimitsP)
  | setSection (cell : Fin 16) (tag : Half) (p : SetSectionP)
  | assignChannel (cell : Fin 16) (tag : Half) (p : AssignChannelP)
  | torque (cell : Fin 16) (tag : Half) (p : TorqueP)
  | engage (cell : Fin 16) (tag : Half) (sect : Byte)
  | disengage (cell : Fin 16) (tag : Half) (sect : Byte)
  | jog (cell : Fin 16) (tag : Half) (p : JogP)
  | trim (cell : Fin 16) (tag : Half) (p : TrimP)
  | clearChannelFault (cell : Fin 16) (tag : Half) (channel : Byte)
  | forgetNode (cell : Fin 16) (tag : Half) (address : Byte)
  | ringHeal (cell : Fin 16) (tag : Half)
  | setTripInput (cell : Fin 16) (tag : Half) (p : SetTripInputP)
  | raiseTrip (cell : Fin 16) (tag : Half) (p : RaiseTripP)
  | releaseTrip (cell : Fin 16) (tag : Half) (index : Byte)
  | clearTrip (cell : Fin 16) (tag : Half) (p : ClearTripP)
  | lineRearm (cell : Fin 16) (tag : Half)
  | setStream (cell : Fin 16) (tag : Half) (p : SetStreamP)
  | startStream (cell : Fin 16) (tag : Half) (stream : Byte)
  | stopStream (cell : Fin 16) (tag : Half) (stream : Byte)
  | setPool (cell : Fin 16) (tag : Half) (p : SetPoolP) (descs : List DescRead)
  | setView (cell : Fin 16) (tag : Half) (p : SetViewP)
  | startView (cell : Fin 16) (tag : Half) (view : Byte)
  | stopView (cell : Fin 16) (tag : Half) (view : Byte)
  | setViewAllowance (cell : Fin 16) (tag : Half) (p : SetViewAllowanceP)
  | setReceive (cell : Fin 16) (tag : Half) (p : SetReceiveP)
  | setScreen (cell : Fin 16) (tag : Half) (p : SetScreenP)
  | screenEnable (cell : Fin 16) (tag : Half) (on : Byte)
  | setPane (cell : Fin 16) (tag : Half) (p : SetPaneP)
  | flipPane (cell : Fin 16) (tag : Half) (pane : Byte)
  | loadPalette (cell : Fin 16) (tag : Half) (p : LoadPaletteP)
  | setBacklight (cell : Fin 16) (tag : Half) (p : SetBacklightP)
  | setMemoryOrder (cell : Fin 16) (tag : Half) (p : SetMemoryOrderP)
  -- symbols, pixels and pulses
  | invalidSymbol (port : Port)
  | misroutedFrame (port : Port) (f : FrameStart)
  | repeatDelayExpiry (secondary : Bool) (now : Time)
  | cameraPixel (u : Fin 2) (pixel : Byte)
  | triggerPulseEnd (u : Fin 2) (now : Time)
  | screenPixel
  | screenReadReturn (data : List Byte)
  | pwmPeriodStart
deriving DecidableEq, Repr

end Sys2Proof
end

