-- ==== Sys2Proof/Machine/Bits.lean ====
section
/-! DEFINITION. The arithmetic of section 1.8 of 00_scope.md, byte orders (R188, R190, R191), the two CRCs (R46, R63), the
codes of R188, and updates of fixed-length vectors. -/

namespace Sys2Proof.Machine

/-! ### Arithmetic (00_scope.md, 1.8) -/

/-- A value modulo 2^32 read in two's complement. -/
def asSigned32 (x : Int) : Int := (x + 2147483648) % 4294967296 - 2147483648

/-- A value modulo 2^32 as a 32-bit field. -/
def word (x : Int) : Word := BitVec.ofInt 32 x

/-- The value of a 32-bit field as a non-negative integer. -/
def posOf (w : Word) : Int := (w.toNat : Int)

/-- The difference of two positions as signed 32-bit. -/
def posDiff (a b : Word) : Int := asSigned32 (posOf a - posOf b)

/-- round(x / d): to the nearest integer with ties away from zero. -/
def roundDiv (x : Int) (d : Nat) : Int :=
  if x < 0 then -((2 * -x + d) / (2 * d)) else (2 * x + d) / (2 * d)

/-- Raised to `lo` if below it, lowered to `hi` if above it. -/
def clampInt (lo hi x : Int) : Int := if x < lo then lo else if hi < x then hi else x

/-- `x` moved toward `target` by min(|target - x|, step). -/
def moveToward (x target : Int) (step : Nat) : Int :=
  if x < target then x + min (target - x) step else x - min (x - target) step

/-- ceil(a / b) for b > 0. -/
def ceilDiv (a b : Nat) : Nat := (a + b - 1) / b

/-- A count saturating at `top`. -/
def satInc (top n : Nat) : Nat := if n < top then n + 1 else n

/-- R134: sequence `a` is newer than `b`. -/
def newer (a b : Word) : Bool := decide (1 ≤ (a - b).toNat ∧ (a - b).toNat ≤ 2147483647)

/-- A 32-bit count that passes from 2^32 - 1 to 1 (R134, R183). -/
def incSkipZero (w : Word) : Word := if w + 1 = 0 then 1 else w + 1

/-- The index below `k` that a raw byte names. -/
def finOf (k : Nat) (n : Nat) : Option (Fin k) := if h : n < k then some ⟨n, h⟩ else none

/-- The boolean parameter of R188: 0 or 1, any other value out of range. -/
def boolOf (b : Byte) : Option Bool := if b = 0 then some false else if b = 1 then some true else none

/-! ### Vectors -/

/-- `f` at every index. -/
def mapV {α β : Type} {n : Nat} (f : Fin n → α → β) (v : Vector α n) : Vector β n := Vector.ofFn fun i => f i v[i]

/-- The element at `i` replaced by `f` of it. -/
def modV {α : Type} {n : Nat} (v : Vector α n) (i : Fin n) (f : α → α) : Vector α n := v.set i (f v[i])

/-- The indices 0 to n - 1, in order. -/
def indices (n : Nat) : List (Fin n) := List.finRange n

/-! ### Byte order -/

/-- `n` bytes of `x`, least significant first (R188). -/
def leBytes : Nat → Nat → List Byte
  | 0, _ => []
  | n + 1, x => BitVec.ofNat 8 x :: leBytes n (x / 256)

/-- `n` bytes of `x`, most significant first (R190, R191). -/
def beBytes (n x : Nat) : List Byte := (leBytes n x).reverse

/-- `n` bytes of a signed value in two's complement, least significant first (R188). -/
def leSigned (n : Nat) (x : Int) : List Byte := leBytes n (x % ((256 : Int) ^ n)).toNat

/-- `n` bytes of a signed value in two's complement, most significant first. -/
def beSigned (n : Nat) (x : Int) : List Byte := (leSigned n x).reverse

/-- The value of bytes stored least significant first. -/
def leValue : List Byte → Nat
  | [] => 0
  | b :: bs => b.toNat + 256 * leValue bs

/-- The value of bytes sent most significant first. -/
def beValue (bs : List Byte) : Nat := leValue bs.reverse

/-- A 32-bit field as 4 bytes, least significant first. -/
def le32 (w : Word) : List Byte := leBytes 4 w.toNat

/-- A 32-bit field as 4 bytes, most significant first. -/
def be32 (w : Word) : List Byte := beBytes 4 w.toNat

/-- One byte holding a small number. -/
def byte (n : Nat) : Byte := BitVec.ofNat 8 n

/-- One byte holding a boolean (R188). -/
def boolByte (b : Bool) : Byte := if b then 1 else 0

/-- A list cut or filled with zero bytes to `n` bytes. -/
def padTo (n : Nat) (bs : List Byte) : List Byte := bs.take n ++ List.replicate (n - bs.length) 0

/-- `n` bytes from offset `at` of a list, zero where it ends. -/
def field (bs : List Byte) (start n : Nat) : List Byte := padTo n (bs.drop start)

/-! ### CRCs -/

/-- One bit of the CRC-16 of R46, the most significant bit leaving first. -/
def crc16Bit (c : Half) : Half := if c.msb then (c <<< 1) ^^^ 0x1021 else c <<< 1

/-- One byte into the CRC-16 of R46, most significant bit first. -/
def crc16Byte (c : Half) (b : Byte) : Half :=
  let c := c ^^^ ((b.setWidth 16) <<< 8)
  crc16Bit (crc16Bit (crc16Bit (crc16Bit (crc16Bit (crc16Bit (crc16Bit (crc16Bit c)))))))

/-- The CRC-16 of R46 and R174 continued over `bs`. -/
def crc16From (c : Half) (bs : List Byte) : Half := bs.foldl crc16Byte c

/-- The CRC-16 of R46: register starting at 0xFFFF, result not inverted. -/
def crc16 (bs : List Byte) : Half := crc16From 0xFFFF bs

/-- One bit of the CRC-32 of R63, in reflected form (0xEDB88320 is 0x04C11DB7 with its bits reversed). -/
def crc32Bit (c : Word) : Word := if c.getLsbD 0 then (c >>> 1) ^^^ 0xEDB88320 else c >>> 1

/-- One byte into the CRC-32 of R63, least significant bit first. -/
def crc32Byte (c : Word) (b : Byte) : Word :=
  let c := c ^^^ (b.setWidth 32)
  crc32Bit (crc32Bit (crc32Bit (crc32Bit (crc32Bit (crc32Bit (crc32Bit (crc32Bit c)))))))

/-- The CRC-32 of R63: register starting with every bit set, result complemented. -/
def crc32 (bs : List Byte) : Word := ~~~ (bs.foldl crc32Byte 0xFFFFFFFF)

end Sys2Proof.Machine

namespace Sys2Proof

/-! ### Codes (R188) -/

def NodeState.code : NodeState → Nat
  | .config => 0 | .joining => 1 | .online => 2 | .holdover => 3 | .isolated => 4 | .passive => 5

def LineState.code : LineState → Nat
  | .standstill => 0 | .running => 1 | .stopping => 2 | .halted => 3 | .torqueOff => 4

def Level.code : Level → Nat
  | .none => 0 | .note => 1 | .stop => 2 | .cut => 3

def Period.code : Period → Nat
  | .us125 => 0 | .us250 => 1 | .us500 => 2 | .us1000 => 3

/-- The period of a period code byte, where it names one. -/
def periodOf (b : Byte) : Option Period :=
  if b = 0 then some .us125 else if b = 1 then some .us250 else if b = 2 then some .us500 else if b = 3 then some .us1000
  else none

/-- The period in microseconds. -/
def Period.us : Period → Nat
  | .us125 => 125 | .us250 => 250 | .us500 => 500 | .us1000 => 1000

/-- The period in nanoseconds. -/
def Period.ns (p : Period) : Nat := 1000 * Period.us p

def RingMode.code : RingMode → Nat
  | .through => 0 | .wrapA => 1 | .wrapB => 2 | .alone => 3

def PortState.code : PortState → Nat
  | .dark => 0 | .syncing => 1 | .up => 2

def TripKind.code : TripKind → Nat
  | .input => 1 | .channel => 2 | .web => 3 | .beatLost => 4 | .nodeMissing => 5 | .ringWrap => 6 | .duplicate => 7
  | .command => 8 | .window => 9

/-- The kind of a trip kind byte, where it names one. -/
def tripKindOf (b : Byte) : Option TripKind :=
  if b = 1 then some .input else if b = 2 then some .channel else if b = 3 then some .web else if b = 4 then some .beatLost
  else if b = 5 then some .nodeMissing else if b = 6 then some .ringWrap else if b = 7 then some .duplicate
  else if b = 8 then some .command else if b = 9 then some .window else none

/-- How many indices a kind has (R86). -/
def TripKind.indices : TripKind → Nat
  | .input => 8 | .channel => 12 | .web => 2 | .beatLost => 1 | .nodeMissing => 32 | .ringWrap => 2 | .duplicate => 2
  | .command => 16 | .window => 1

/-- The kinds whose entries record a line axis position (R86). -/
def TripKind.axisBearing : TripKind → Bool
  | .input | .channel | .web | .beatLost | .command => true
  | .nodeMissing | .ringWrap | .duplicate | .window => false

/-- A class stands for its level (R85). -/
def TripClass.level : TripClass → Level
  | .note => .note | .stop => .stop | .cut => .cut

/-- The class of a class byte NOTE, STOP or CUT. -/
def classOf (b : Byte) : Option TripClass :=
  if b = 1 then some .note else if b = 2 then some .stop else if b = 3 then some .cut else none

def BurstState.code : BurstState → Nat
  | .active => 1 | .latched => 2 | .cleared => 3

/-- The state of a burst's state byte. -/
def burstStateOf (b : Byte) : Option BurstState :=
  if b = 1 then some .active else if b = 2 then some .latched else if b = 3 then some .cleared else none

def ResultCode.code : ResultCode → Nat
  | .ok => 0 | .unknown => 1 | .badParam => 2 | .wrongState => 3 | .busy => 4 | .tripped => 5 | .notMaster => 6
  | .noSuch => 7 | .stillPresent => 8 | .cancelled => 9

/-- The frame kind code of a payload (R188). -/
def Payload.kindCode : Payload → Byte
  | .beat _ => 1 | .trip _ => 2 | .view _ => 3 | .probe _ => 4 | .probeReply _ _ => 5 | .other k _ => k

/-- PROBE and PROBE_REPLY are the link frames (R62). -/
def Payload.isLink : Payload → Bool
  | .probe _ | .probeReply _ _ => true
  | .beat _ | .trip _ | .view _ | .other _ _ => false

/-! ### Levels (R85) -/

/-- The higher of two levels. -/
def Level.max (a b : Level) : Level := if a.code < b.code then b else a

/-- STOP or above. -/
def Level.isStop (l : Level) : Bool := decide (2 ≤ l.code)

/-- The maximum of levels, NONE when there are none. -/
def maxLevel (ls : List Level) : Level := ls.foldr Level.max .none

end Sys2Proof
end

