-- ==== Sys2Proof/Decode.lean ====
section
/-! DEFINITION. Reading commands from bits. The table of commands gives no row any bits, so a word spells no command. The
one decoding the manual gives is that of a cell of the command board: its code and its parameters packed in the order of
11.4, least significant byte first, from cell offset 0x04 (R188). -/

namespace Sys2Proof

open Machine in
/-- The byte at `off` of a cell's parameters. -/
def par1 (ps : List Byte) (off : Nat) : Byte := ps.getD off 0

open Machine in
/-- The 2-byte field at `off` of a cell's parameters. -/
def par2 (ps : List Byte) (off : Nat) : Half := BitVec.ofNat 16 (leValue (field ps off 2))

open Machine in
/-- The 4-byte field at `off` of a cell's parameters. -/
def par4 (ps : List Byte) (off : Nat) : Word := BitVec.ofNat 32 (leValue (field ps off 4))

open Machine in
/-- The 8-byte field at `off` of a cell's parameters. -/
def par8 (ps : List Byte) (off : Nat) : Addr := BitVec.ofNat 64 (leValue (field ps off 8))

/-- The command of a cell: its code byte and parameters by the table of 11.4; any other code names no command (R180). -/
def decodeCell (code : Byte) (ps : List Byte) (descs : List DescRead) : BoardCmd :=
  if code = 0x01 then .setCycle ⟨par1 ps 0, par2 ps 1, par2 ps 3, par2 ps 5⟩
  else if code = 0x02 then .setHoldover ⟨par1 ps 0, par1 ps 1⟩
  else if code = 0x03 then .setLineSpeed (par4 ps 0)
  else if code = 0x04 then .setLineLimits ⟨par4 ps 0, par4 ps 4, par2 ps 8, par2 ps 10, par2 ps 12⟩
  else if code = 0x10 then
    .setSection ⟨par1 ps 0, par2 ps 1, par2 ps 3, par4 ps 5, par2 ps 9, par2 ps 11, par4 ps 13, par2 ps 17, par4 ps 19,
      par2 ps 23⟩
  else if code = 0x11 then
    .assignChannel ⟨par1 ps 0, par1 ps 1, par1 ps 2, par4 ps 3, par1 ps 7, par1 ps 8, par1 ps 9⟩
  else if code = 0x12 then .torque ⟨par1 ps 0, par1 ps 1⟩
  else if code = 0x13 then .engage (par1 ps 0)
  else if code = 0x14 then .disengage (par1 ps 0)
  else if code = 0x15 then .jog ⟨par1 ps 0, par4 ps 1⟩
  else if code = 0x16 then .trim ⟨par1 ps 0, par1 ps 1, par1 ps 2, par4 ps 3⟩
  else if code = 0x18 then .clearChannelFault (par1 ps 0)
  else if code = 0x20 then .forgetNode (par1 ps 0)
  else if code = 0x21 then .ringHeal
  else if code = 0x28 then .setTripInput ⟨par1 ps 0, par1 ps 1, par1 ps 2, par1 ps 3, par1 ps 4⟩
  else if code = 0x29 then .raiseTrip ⟨par1 ps 0, par1 ps 1⟩
  else if code = 0x2A then .releaseTrip (par1 ps 0)
  else if code = 0x2B then .clearTrip ⟨par1 ps 0, par1 ps 1, par1 ps 2⟩
  else if code = 0x2C then .lineRearm
  else if code = 0x30 then
    .setStream ⟨par1 ps 0, par1 ps 1, par1 ps 2, par1 ps 3, par2 ps 4, par2 ps 6, par4 ps 8, par2 ps 12, par2 ps 14,
      par2 ps 16⟩
  else if code = 0x31 then .startStream (par1 ps 0)
  else if code = 0x32 then .stopStream (par1 ps 0)
  else if code = 0x38 then .setPool ⟨par1 ps 0, par1 ps 1, par1 ps 2⟩ descs
  else if code = 0x40 then
    .setView ⟨par1 ps 0, par1 ps 1, par1 ps 2, par1 ps 3, par1 ps 4, par1 ps 5, par2 ps 6, par2 ps 8, par2 ps 10,
      par2 ps 12, par2 ps 14⟩
  else if code = 0x41 then .startView (par1 ps 0)
  else if code = 0x42 then .stopView (par1 ps 0)
  else if code = 0x43 then .setViewAllowance ⟨par2 ps 0, par1 ps 2⟩
  else if code = 0x44 then .setReceive ⟨par1 ps 0, par1 ps 1, par1 ps 2, par1 ps 3, par2 ps 4⟩
  else if code = 0x50 then
    .setScreen ⟨par2 ps 0, par2 ps 2, par1 ps 4, par1 ps 5, par1 ps 6, par1 ps 7, par1 ps 8, par1 ps 9, par1 ps 10,
      par1 ps 11, par1 ps 12, par1 ps 13⟩
  else if code = 0x51 then .screenEnable (par1 ps 0)
  else if code = 0x52 then
    .setPane { pane := par1 ps 0, enable := par1 ps 1, host := par1 ps 2, pool := par1 ps 3, incomplete := par1 ps 4,
               tint := par1 ps 5, zoom := par1 ps 6, bufA := par8 ps 7, bufB := par8 ps 15, hostStride := par2 ps 23,
               hostWidth := par2 ps 25, hostRows := par2 ps 27, x := par2 ps 29, y := par2 ps 31, w := par2 ps 33,
               h := par2 ps 35, sx := par2 ps 37, sy := par2 ps 39 }
  else if code = 0x53 then .flipPane (par1 ps 0)
  else if code = 0x54 then .loadPalette ⟨par1 ps 0, par8 ps 1⟩
  else if code = 0x55 then .setBacklight ⟨par1 ps 0, par1 ps 1, par1 ps 2⟩
  else if code = 0x60 then .setMemoryOrder ⟨par1 ps 0, par1 ps 1, par1 ps 2, par1 ps 3, par1 ps 4⟩
  else .unknown code

/-- The command that a word of the table spells: none, since no row of the table has bits (log entry 6). -/
def decodeTableWord (_nbits _w : Nat) : Option Instr := none

end Sys2Proof
end

