-- ==== Sys2Proof/Machine/State.lean ====
section
/-! DEFINITION. The state of the part, block by block as section 1.4 of 00_scope.md lists them, and `State.reset`. Field
defaults are the reset values of the chapters. Times are local times in ns; a time that a rule computes by subtraction may
lie before 0 and is an `Int`. -/

namespace Sys2Proof.Machine

/-! ### Trips (chapter 5) -/

/-- The key of a trip entry: source node, kind and index (R87). -/
structure Key where
  source : NodeAddr
  kind : TripKind
  index : Nat
deriving DecidableEq, Repr

/-- A trip entry (R87). `latched` is the state LATCHED, else ACTIVE. -/
structure TripEntry where
  key : Key
  cls : TripClass
  latched : Bool
  firstCycle : Word
  firstPos : Option Word
  lastChange : Word
  count : Nat
  seq : Option Byte
  age : Nat
deriving DecidableEq, Repr

/-- A local condition that is present (R86); the set lists them in the order in which they became present. -/
structure Cond where
  kind : TripKind
  index : Nat
  cls : TripClass
deriving DecidableEq, Repr

/-- A burst of the trip transmit queue (R93, R94): its content but for the sequence. -/
structure QBurst where
  key : Key
  cls : TripClass
  state : BurstState
  refresh : Bool
  cycle : Word
  pos : Option Word
  count : Nat
deriving DecidableEq, Repr

/-- A trip input (R90). `tripping` is the debounced state; `sampled` the level sampled last. -/
structure TripInput where
  enabled : Bool := false
  cls : TripClass := .stop
  tripsLow : Bool := false
  debounce : Nat := 0
  tripping : Bool := false
  run : Nat := 0
  sampled : Bool := false
deriving DecidableEq, Repr

/-- The Trip Controller. `heard` is the last-heard array, the own sequence in the place of the own address (R96). -/
structure TripCtl where
  table : List TripEntry := []
  conds : List Cond := []
  inputs : Vector TripInput 8 := Vector.replicate 8 {}
  queue : List QBurst := []
  heard : Vector (Option Byte) 32 := Vector.replicate 32 none
  lineTerm : Level := .none
  lineState : LineState := .standstill
  replacements : Word := 0
  overflows : Word := 0
  suppressed : Word := 0
  sent : Word := 0
  accepted : Word := 0
  duplicates : Word := 0
  stale : Word := 0
  reconciliations : Word := 0
  expiries : Word := 0
deriving DecidableEq, Repr

/-! ### Cycle Timer and Axis Generator (chapter 1) -/

/-- SET_CYCLE values pending for the next cycle start (R2). -/
structure PendingCycle where
  period : Period
  pIn : Nat
  pCo : Nat
  pIs : Nat
deriving DecidableEq, Repr

/-- The Cycle Timer and the node state (R1, R13, R14, R17). Phases are in microseconds; `start` is the cycle start S. -/
structure CycleTimer where
  localTime : Time := 0
  n : Word := 0
  start : Int := 0
  period : Period := .us250
  pIn : Nat := 30
  pCo : Nat := 50
  pIs : Nat := 210
  raisedIn : Bool := false
  raisedCo : Bool := false
  raisedIs : Bool := false
  lock : Bool := false
  correction : Int := 0
  late : Word := 0
  pendingCycle : Option PendingCycle := none
  nodeState : NodeState := .config
  missed : Nat := 0
  lead : Nat := 205
  limit : Nat := 3
  pendingHoldover : Option (Nat × Nat) := none
deriving DecidableEq, Repr

/-- The Axis Generator (R7 to R12) and the line limits, which every node holds (R11). -/
structure AxisGen where
  theta : Word := 0
  v : Int := 0
  demand : Int := 0
  vMax : Nat := 0
  vRev : Nat := 0
  aUp : Nat := 1
  aDown : Nat := 1
  aStop : Nat := 65535
  lineState : LineState := .standstill
deriving DecidableEq, Repr

/-! ### Gear Unit (chapters 1 and 2) -/

/-- Section states (R20). -/
inductive SectionState | unset | held | jogging | engaging | engaged | releasing
deriving DecidableEq, Repr

/-- Channel states (R22). -/
inductive ChannelState | free | tracking | active | faulted
deriving DecidableEq, Repr

/-- An entry of a channel's telegram history (R52). -/
inductive Sent | withTorque | withoutTorque | notSent
deriving DecidableEq, Repr

/-- A section record (R20). `relPhi` and `relR` keep the engage relation's φ and r for the ENGAGE's result (R36). -/
structure Sect where
  state : SectionState := .unset
  n : Int := 1
  m : Nat := 1
  base : Word := 0
  q : Int := 0
  phi : Word := 0
  r : Nat := 0
  offT : Int := 0
  offA : Int := 0
  trimStep : Nat := 0
  k : Nat := 1
  maxStep : Nat := 1048576
  g : Nat := 1
  jogLimit : Nat := 0
  jogSpeed : Int := 0
  jogDemand : Int := 0
  u : Int := 0
  torqueLimit : Nat := 0
  mark : Bool := false
  engageCell : Option (Fin 16) := none
  disengageCells : List (Fin 16) := []
  relPhi : Word := 0
  relR : Nat := 0
deriving DecidableEq, Repr

/-- One bit per fault kind of a channel: its flags, or its present conditions (R53 to R56). -/
structure Faults where
  noReply : Bool := false
  following : Bool := false
  driveFault : Bool := false
deriving DecidableEq, Repr

/-- A channel record (R22) with the fields the DLC owns in it (R50, R52 to R55, R59). `fresh` says that a valid reply has
come since the setpoint was last formed (R31). -/
structure Channel where
  state : ChannelState := .free
  sect : Option (Fin 4) := none
  address : Option Nat := none
  offT : Int := 0
  offA : Int := 0
  w : Int := 0
  c : Int := 0
  cRem : Nat := 1
  join : Bool := false
  hold : Word := 0
  s : Word := 0
  s1 : Word := 0
  s2 : Word := 0
  a : Word := 0
  fresh : Bool := false
  followLimit : Nat := 16777216
  followCount : Nat := 3
  missLimit : Nat := 3
  cls : TripClass := .stop
  flags : Faults := {}
  present : Faults := {}
  followCtr : Nat := 0
  noReplyCtr : Nat := 0
  driveCtr : Nat := 0
  hist0 : Sent := .notSent
  hist1 : Sent := .notSent
  hist2 : Sent := .notSent
  late : Bool := false
  ready : Bool := false
  driveFault : Bool := false
  torqueReached : Bool := false
  torque : Int := 0
  err : Int := 0
deriving DecidableEq, Repr

/-- The taken beat of the current cycle: θ, v and line state (R6). -/
structure TakenBeat where
  theta : Word
  v : Int
  lineState : LineState
deriving DecidableEq, Repr

/-- The Gear Unit. `continuous` is clear where gear input continuity is to restart (R19); `formed` says that a gear input
has been formed since the last reset (R87); `formedNow` and `restarted` tell of the last compute event; `leftIsolated` is
the R43 action owed at the next compute event of a node that became PASSIVE while ISOLATED (R13). -/
structure GearUnit where
  sections : Vector Sect 4 := Vector.replicate 4 {}
  channels : Vector Channel 12 := Vector.replicate 12 {}
  lastTheta : Word := 0
  lastV : Int := 0
  thetaX : Word := 0
  delta : Int := 0
  taken : Option TakenBeat := none
  continuous : Bool := false
  formed : Bool := false
  formedNow : Bool := false
  restarted : Bool := false
  leftIsolated : Bool := false
deriving DecidableEq, Repr

/-! ### Drive Line Controller (chapter 3) -/

/-- A slot of the exchange timetable (R49) with the values of the channel record at the compute event (R47). -/
structure DriveSlot where
  channel : Fin 12
  start : Int
  address : Nat
  setpoint : Word
  feedforward : Int
  engaged : Bool
  inSync : Bool
  limit : Nat
deriving DecidableEq, Repr

/-- The exchange in progress (R50): its slot, the start of its SETPOINT and the torque enable flag sent. -/
structure Exchange where
  slot : DriveSlot
  start : Int
  torque : Bool
deriving DecidableEq, Repr

/-- A SYNC waiting for the idle line (R51): the cycle number it carries and when its wait began. -/
structure PendingSync where
  cycle : Half
  since : Int
deriving DecidableEq, Repr

/-- The Drive Line Controller. `lineFree` is the local time from which the line has been idle for 20 bit times after its
own telegrams and the replies it took; `telegram` is the telegram sent last, on the line from `begun` to `driveUntil` (DDE).
`busyStart` says that the timetable starts after 5 µs of waiting for an idle line (R51). -/
structure DriveLine where
  slots : List DriveSlot := []
  exchange : Option Exchange := none
  sync : Option PendingSync := none
  lastSync : Option Half := none
  lineFree : Int := 0
  busyStart : Bool := false
  begun : Int := 0
  driveUntil : Int := 0
  telegram : List Byte := []
  sent : Word := 0
  valid : Word := 0
  missing : Word := 0
  invalid : Word := 0
  late : Word := 0
  slips : Word := 0
  contention : Word := 0
deriving DecidableEq, Repr

/-! ### Ring Interface (chapter 4) -/

/-- A ring port (R61, R78, R80, R84). `upSince` is present while the port is UP. -/
structure PortRec where
  state : PortState := .dark
  upSince : Option Nat := none
  idleRun : Nat := 0
  delay : Option Nat := none
  probeNumber : Byte := 0
  outstanding : Option (Byte × Nat) := none
  symbolErrors : Word := 0
  crcErrors : Word := 0
  probeFailures : Word := 0
deriving DecidableEq, Repr

/-- A frame being repeated: where and when its start delimiter arrived, its copy, for a BEAT the transit at arrival, and for a
damaged frame how many bytes of it came between the delimiters (R64, R65, R72). `port` is `none` for a frame that came by the
node's own loop, the primary input in ALONE (R62). -/
structure Copy where
  port : Option Port
  secondary : Bool
  sd : Nat
  frame : Frame
  transit : Word := 0
  damaged : Option Nat := none
deriving DecidableEq, Repr

/-- A place of the forwarding store (R67); `sentAt` is the time its end delimiter goes out, once it is being sent. -/
structure Place where
  copy : Copy
  sentAt : Option Nat
deriving DecidableEq, Repr

/-- A frame on a transmit fibre, from its start delimiter out at `startsAt` to the end of its end delimiter at `endsAt`;
`repeated` gives where and when a repeated frame's start delimiter arrived, as in `Copy`. `damaged`: it ends damaged, with an error
end delimiter (R64) or by a change of the routing (R81). `slotOwed`: a BEAT of another source whose slot for this node is still to
go out, and did not arrive stamped (R71). -/
structure Sending where
  frame : Frame
  repeated : Option (Option Port × Nat)
  damaged : Bool
  startsAt : Nat
  endsAt : Nat
  slotOwed : Bool := false
deriving DecidableEq, Repr

/-- The values of a queued BEAT (R7, R70). -/
structure QueuedBeat where
  cycle : Word
  start : Int
  theta : Word
  v : Int
  lineState : LineState
  level : Level
  period : Period
  heal : Bool
deriving DecidableEq, Repr

/-- An own frame of the RI waiting to be sent, with its port for link frames (R66, R68, R78, R79). -/
inductive OwnFrame
  | beat (b : QueuedBeat)
  | probe (port : Port) (number : Byte)
  | reply (port : Port) (dest : Byte) (number : Byte) (arrived : Nat)
deriving DecidableEq, Repr

/-- One slot of the returned slot copy (R73). -/
structure CopySlot where
  stamped : Bool := false
  nodeState : NodeState := .config
  level : Level := .none
  entries : Nat := 0
  mode : RingMode := .through
deriving DecidableEq, Repr

/-- A BEAT being received on the primary input: its start delimiter's time, its own transit (R72), that its slot for this node
comes stamped and is not in yet, and the finding, once it is in, of a duplicate (R74). -/
structure BeatInput where
  sd : Nat
  transit : Word
  stamped : Bool := false
  duplicate : Bool
deriving DecidableEq, Repr

/-- A pending RING_HEAL (R83): its cell, and the returning beats since it was taken. -/
structure Heal where
  cell : Fin 16
  returns : Nat
deriving DecidableEq, Repr

/-- Own frames sent, per kind in frame kind order (R84). -/
structure OwnSent where
  beat : Word := 0
  trip : Word := 0
  view : Word := 0
  probe : Word := 0
  reply : Word := 0
deriving DecidableEq, Repr

/-- The Ring Interface. `stopped` is the stop of beat origination (R75); `present` gives the missed-slot count of each
member of the present set (R76). `routedAt` is when the routing last changed: a frame that began before is lost (R81). -/
structure Ring where
  ports : Vector PortRec 2 := Vector.replicate 2 {}
  mode : RingMode := .alone
  routedAt : Nat := 0
  delayed : List Copy := []
  store : List Place := []
  primaryTx : Option Sending := none
  linkTx : Vector (Option Sending) 2 := Vector.replicate 2 none
  own : List OwnFrame := []
  beatIn : Option BeatInput := none
  healMark : Bool := false
  stopped : Bool := false
  copyCycle : Word := 0
  copy : Vector CopySlot 32 := Vector.replicate 32 {}
  present : Vector (Option Nat) 32 := Vector.replicate 32 none
  healFlag : Bool := false
  healRun : Nat := 0
  heal : Option Heal := none
  hopRemovals : Word := 0
  viewDiscards : Word := 0
  storeDiscards : Word := 0
  misrouted : Word := 0
  repeated : Word := 0
  ownSent : OwnSent := {}
deriving DecidableEq, Repr

/-! ### Frames in pools (chapters 6 to 8) -/

/-- The flags of a frame (R131). -/
structure FrameFlags where
  clipped : Bool := false
  overrun : Bool := false
  shortRow : Bool := false
  gapped : Bool := false
  truncated : Bool := false
  incomplete : Bool := false
deriving DecidableEq, Repr

/-- Where a frame's data go: the fill target is awaited, a buffer of the pool, or none (R121, R157). -/
inductive Target | waiting | buffer (b : Nat) | skip
deriving DecidableEq, Repr

/-- Buffer states (R131). -/
inductive BufState | free | filling | full
deriving DecidableEq, Repr

/-- A buffer record (R131). `lastHold` is the hold value last read since SET_POOL (R132). -/
structure Buffer where
  address : Addr
  capacity : Nat
  stride : Nat
  state : BufState := .free
  flags : FrameFlags := {}
  readers : Nat := 0
  sequence : Word := 0
  repeatNo : Nat := 0
  firstPos : Word := 0
  rows : Nat := 0
  width : Nat := 0
  lastHold : Option Byte := none
deriving DecidableEq, Repr

/-- A fill-target request whose hold reads are outstanding (R135); `sequence` comes with a receive frame (R134). -/
structure FillRequest where
  repeatNo : Nat
  width : Nat
  firstPos : Word
  sequence : Option Word
deriving DecidableEq, Repr

/-- The frame of a pending target (R136), with the sequence it was given. -/
structure PendingTarget where
  buffer : Nat
  repeatNo : Nat
  width : Nat
  firstPos : Word
  sequence : Word
deriving DecidableEq, Repr

/-- A pool record (R130). -/
structure Pool where
  configured : Bool := false
  notify : Bool := false
  nextSeq : Word := 1
  completed : Word := 0
  skipped : Word := 0
  filling : Option Nat := none
  pendingTarget : Option PendingTarget := none
  request : Option FillRequest := none
  buffers : List Buffer := []
deriving DecidableEq, Repr

/-- What the PM writes into the window (R132), with the bytes as they stood at the change of the record: the part-owned fields
of a buffer, the state byte first; those after the state byte, with a new state whose byte follows once they have landed; a pool
header. -/
inductive PoolItem
  | fields (b : Nat) (bytes : List Byte)
  | change (b : Nat) (bytes : List Byte) (state : BufState)
  | header (bytes : List Byte)
deriving DecidableEq, Repr

/-- A write of the PM; `rewrite` marks those of a resumption (R132). -/
structure PoolWrite where
  pool : Fin 6
  item : PoolItem
  rewrite : Bool := false
deriving DecidableEq, Repr

/-- The Pool Manager. `work` holds the writes not yet issued, in order, behind the change whose fields are on their way and
whose state byte is owed. -/
structure PoolMgr where
  pools : Vector Pool 6 := Vector.replicate 6 {}
  work : List PoolWrite := []
deriving DecidableEq, Repr

/-- A write of a camera or of ring-in that has been granted and not yet been reported: the frame its bytes belong to and where
they go (R123, R158, R186). `asked` counts the reporting reads granted after it that are still on their way. -/
structure DataWrite where
  unit : Nat
  frame : Nat
  addr : Addr
  bytes : List Byte
  asked : Nat := 0
deriving DecidableEq, Repr

/-- A stored byte waiting in a camera FIFO or in the ring-in buffer: the frame it belongs to, its row and column there,
and its address once the fill target is known (R121, R123, R157). -/
structure FifoByte where
  unit : Nat
  frame : Nat
  row : Nat
  col : Nat
  addr : Option Addr
  byte : Byte
deriving DecidableEq, Repr

/-- Stream states (R111). -/
inductive StreamState | idle | armed | capturing
deriving DecidableEq, Repr

/-- The settings of SET_STREAM (R112). -/
structure StreamSet where
  rowPixels : Nat := 4096
  pitch : Nat := 512
  phase : Nat := 0
  decimation : Nat := 1
  minPeriod : Nat := 125
  rowTimeout : Nat := 100
  threshold : Nat := 0
  webRows : Nat := 64
  webClass : Option TripClass := none
deriving DecidableEq, Repr

/-- The next row (R111): frame number, row index and position. -/
structure NextRow where
  frame : Word
  j : Nat
  pos : Word
deriving DecidableEq, Repr

/-- A trigger of the trigger plan or of the outstanding-trigger queue (R116, R118): its planned time, or its fire time. -/
structure Trigger where
  frame : Word
  j : Nat
  pos : Word
  time : Int
deriving DecidableEq, Repr

/-- A frame begun by a stream and not yet completed (R121, R124). `id` is the model's own number of the frame; `rows` is its R,
fixed for its life (R114); `waitingRows` lists the rows that ended before the fill target was known. -/
structure CapFrame where
  id : Nat
  number : Word
  boundary : Word
  rows : Nat
  resolved : Nat
  stored : Nat := 0
  flags : FrameFlags := {}
  target : Target := .waiting
  waitingRows : List Nat := []
deriving DecidableEq, Repr

/-- The row in reception (R120, R122). -/
structure RowIn where
  frame : Nat
  j : Nat
  received : Nat := 0
  sum : Nat := 0
  storedPixels : Nat := 0
  overrun : Bool := false
  long : Bool := false
deriving DecidableEq, Repr

/-- The counts of R129, in table order. -/
structure CaptureCounts where
  fired : Word := 0
  missedRows : Word := 0
  overruns : Word := 0
  timeouts : Word := 0
  spurious : Word := 0
  longRows : Word := 0
  shortRows : Word := 0
  clippedRows : Word := 0
  discarded : Word := 0
  fifoOverruns : Word := 0
  completed : Word := 0
  resyncs : Word := 0
deriving DecidableEq, Repr

/-- A Capture Unit's stream record (R111). `ahead` counts rows resolved missing of frames not yet begun (R121, R124); `flight`
holds the writes that no read has reported yet (R186). -/
structure Stream where
  state : StreamState := .idle
  configured : Bool := false
  set : StreamSet := {}
  frameNumber : Word := 0
  nextId : Nat := 0
  frames : List CapFrame := []
  nextRow : Option NextRow := none
  ahead : List (Word × Nat) := []
  lastTrigger : Option Int := none
  plan : List Trigger := []
  outstanding : List Trigger := []
  row : Option RowIn := none
  broken : Bool := false
  dark : Nat := 0
  bright : Nat := 0
  lastMean : Nat := 0
  trigHigh : Bool := false
  trigFall : Int := 0
  fifo : List FifoByte := []
  flight : List DataWrite := []
  counts : CaptureCounts := {}
deriving DecidableEq, Repr

/-! ### View Engine (chapter 8) -/

/-- View states (R146). -/
inductive ViewState | stopped | waiting | sending
deriving DecidableEq, Repr

/-- The settings of SET_VIEW (R147). -/
structure ViewSet where
  pool : Fin 2 := 0
  dest : Nat := 63
  x0 : Nat := 0
  y0 : Nat := 0
  w : Nat := 4096
  h : Nat := 256
  dx : Nat := 1
  dy : Nat := 1
  mean : Bool := false
  segSize : Nat := 512
deriving DecidableEq, Repr

/-- The current view frame (R146, R149). -/
structure ViewFrame where
  buffer : Nat
  sequence : Word
  repeatNo : Nat
  w : Nat
  h : Nat
  count : Nat
  next : Nat
deriving DecidableEq, Repr

/-- A prepared segment (R151): source reads still to issue, reads issued, output pixels that a bus error made 0, and its
pixel bytes once it is ready. -/
structure Prepared where
  toRead : List (Nat × Nat)
  issued : List (Nat × Nat) := []
  zeroed : List Nat := []
  ready : Option (List Byte) := none
deriving DecidableEq, Repr

/-- An outgoing view record (R146) with its sending counts (R160). -/
structure View where
  state : ViewState := .stopped
  configured : Bool := false
  set : ViewSet := {}
  last : Option Word := none
  current : Option ViewFrame := none
  prepared : Option Prepared := none
  sent : Word := 0
  framesSent : Word := 0
  empty : Word := 0
  truncations : Word := 0
  readErrors : Word := 0
deriving DecidableEq, Repr

/-- Assembly states (R155). -/
inductive AsmState | closed | openA | skipping
deriving DecidableEq, Repr

/-- A receive frame whose data are on their way: open or closed, not yet complete (R157, R159). -/
structure RecvFrame where
  id : Nat
  sequence : Word
  repeatNo : Nat
  w : Nat
  extent : Nat := 0
  flags : FrameFlags := {}
  target : Target := .waiting
  closed : Bool := false
deriving DecidableEq, Repr

/-- A receive binding (R155) with its receiving counts (R160). The OPEN assembly's extent and flags stand in the last
element of `frames`. -/
structure Binding where
  source : Option (NodeAddr × Nat) := none
  timeout : Nat := 0
  last : Option Word := none
  asm : AsmState := .closed
  w : Nat := 0
  h : Nat := 0
  count : Nat := 0
  next : Nat := 0
  idle : Nat := 0
  nextId : Nat := 0
  frames : List RecvFrame := []
  accepted : Word := 0
  duplicates : Word := 0
  gaps : Word := 0
  invalid : Word := 0
  skipped : Word := 0
  supersessions : Word := 0
  timeouts : Word := 0
deriving DecidableEq, Repr

/-- The View Engine (R152, R155). `withdrawn` stands from the quiet window's start to the next cycle start; `exhausted`
from a ready segment larger than the budget (R153). -/
structure ViewEngine where
  views : Vector View 4 := Vector.replicate 4 {}
  allowance : Nat := 0
  quiet : Nat := 20
  pendingAllowance : Option (Nat × Nat) := none
  budget : Nat := 0
  turn : Fin 4 := 0
  withdrawn : Bool := false
  exhausted : Bool := false
  bindings : Vector Binding 4 := Vector.replicate 4 {}
  unbound : Word := 0
  ringIn : List FifoByte := []
  flight : List DataWrite := []
deriving DecidableEq, Repr

/-! ### Screen Controller (chapter 9) -/

/-- The fields of a pane record (R165). -/
structure PaneSet where
  enable : Bool := false
  host : Bool := false
  pool : Fin 6 := 0
  incomplete : Bool := false
  bufA : Addr := 0
  bufB : Addr := 0
  hostStride : Nat := 1
  hostWidth : Nat := 1
  hostRows : Nat := 1
  x : Nat := 0
  y : Nat := 0
  w : Nat := 320
  h : Nat := 240
  sx : Nat := 0
  sy : Nat := 0
  zoom : Nat := 1
  tint : Bool := false
deriving DecidableEq, Repr

/-- A pane's source for the frame (R167). -/
structure PaneSource where
  address : Addr
  stride : Nat
  width : Nat
  rows : Nat
deriving DecidableEq, Repr

/-- A pane: in force and pending copies, held buffer, shown buffer (true for B), pending flip and source (R165, R167). -/
structure Pane where
  inForce : PaneSet := {}
  waiting : Option PaneSet := none
  held : Option (Fin 6 × Nat) := none
  shownB : Bool := false
  flip : Option (Fin 16) := none
  source : Option PaneSource := none
deriving DecidableEq, Repr

/-- Load states of a palette (R170). -/
inductive LoadState | idle | reading | complete
deriving DecidableEq, Repr

/-- A palette's load store, load state and command cell (R170). `issued` counts the bytes whose reads have been issued. -/
structure PaletteLoad where
  state : LoadState := .idle
  store : List (BitVec 24) := []
  cell : Option (Fin 16) := none
  address : Addr := 0
  issued : Nat := 0
  busError : Bool := false
deriving DecidableEq, Repr

/-- A source byte that a line of the frame needs: line, pane, source row and column (R173). -/
structure Need where
  line : Nat
  pane : Fin 4
  row : Nat
  col : Nat
deriving DecidableEq, Repr

/-- The Screen Controller (R161). `position` is the line and the pixel clock of it that the raster outputs next, the line after
the last one at a frame's end, where the next frame start is due; `running`
is the signature being formed and `latched` says that this frame's active end has come; `dutyFormed` is the duty last formed
and `duty` the one in force (R172); `fetchLine` and `fetchAt` give the next byte to fetch, and `reads` the pane reads in
flight, empty where their data are to be discarded (R173). -/
structure Screen where
  enabled : Bool := false
  width : Nat := 640
  height : Nat := 480
  clock : Nat := 25
  hFront : Nat := 16
  hSync : Nat := 64
  hBack : Nat := 80
  vFront : Nat := 3
  vSync : Nat := 4
  vBack : Nat := 13
  fill : BitVec 24 := 0
  position : Option (Nat × Nat) := none
  alarm : Bool := false
  frames : Word := 0
  signature : Half := 0
  running : Half := 0xFFFF
  latched : Bool := false
  panes : Vector Pane 4 := Vector.replicate 4 {}
  palettes : Vector (List (BitVec 24)) 2 := Vector.replicate 2 (List.replicate 256 0)
  loads : Vector PaletteLoad 2 := Vector.replicate 2 {}
  code : Nat := 0
  square : Bool := false
  alarmMin : Nat := 0
  dutyFormed : Nat := 0
  duty : Nat := 0
  blpwm : Bool := false
  fifo : List (Need × Byte) := []
  reads : List (List Need) := []
  fetchLine : Nat := 0
  fetchAt : Nat := 0
  underruns : Word := 0
  readErrors : Word := 0
  pclk : Bool := false
  hs : Bool := false
  vs : Bool := false
  de : Bool := false
  rgb : BitVec 24 := 0
deriving DecidableEq, Repr

/-! ### Window Controller and Memory Port (chapter 10) -/

/-- What a cell's final write carries (R180). -/
structure Result where
  code : ResultCode
  clamped : Bool
  data : List Byte
deriving DecidableEq, Repr

/-- How far the final write of a record has come (R180): not begun, its result fields issued, its state byte issued. -/
inductive ResultPhase | kept | fields | final
deriving DecidableEq, Repr

/-- A cell record that holds a command (R178). -/
structure CellRecord where
  cmd : BoardCmd
  tag : Half
  result : Option Result := none
  phase : ResultPhase := .kept
deriving DecidableEq, Repr

/-- The set of window transactions whose landing one later event waits on (R132, R180, R182, R183). -/
inductive Group
  | plain
  | scan
  | cell (c : Fin 16)
  | page
  | publishHeader
  | mirror
  | hold (p : Fin 6)
  | desc (p : Fin 6) (b : Nat)
deriving DecidableEq, Repr

/-- One transaction of the window requester waiting for a grant: a write of bytes at a host address, or a read (no bytes).
`publish` tells publish traffic, which is presented high (R185). -/
structure WinItem where
  group : Group
  publish : Bool
  addr : Addr
  bytes : List Byte
deriving DecidableEq, Repr

/-- The fields of the window header as last formed (R182, R183, 11.3). -/
structure Header where
  nodeState : NodeState := .config
  pageB : Bool := false
  cycle : Word := 0
  publishCount : Word := 0
  version : Word := 0
  attn : BitVec 6 := 0
deriving DecidableEq, Repr

/-- A publish in progress (R182): page writes, then header write; with the cycle number of its issue event. -/
inductive Publish | idle | page (cycle : Word) | header
deriving DecidableEq, Repr

/-- A mirror rewrite in progress (R183): the version when its step 2 began, and the stale mark. -/
structure Mirror where
  version : Word
  stale : Bool
deriving DecidableEq, Repr

/-- The Window Controller and the registers. `descRead` lists the cells whose SET_POOL descriptors the scan in progress has
read or is reading (R179); `messages` counts message interrupts sent: the model's own record of MSG_INT. -/
structure Window where
  winbase : Addr := 0
  run : Bool := false
  resetting : Bool := false
  mask : BitVec 6 := 0
  attn : BitVec 6 := 0
  messages : Nat := 0
  fault : Bool := false
  records : Vector (Option CellRecord) 16 := Vector.replicate 16 none
  scanning : Bool := false
  descRead : List (Fin 16) := []
  currentB : Bool := false
  publishCount : Word := 0
  publish : Publish := .idle
  version : Word := 1
  mirror : Option Mirror := none
  header : Header := {}
  queue : List WinItem := []
  scans : Word := 0
  skippedScans : Word := 0
  skippedPublishes : Word := 0
  faults : Word := 0
deriving DecidableEq, Repr

/-- The Memory Port (R185, R186); grants in SCREEN_FIRST order. -/
structure MemPort where
  camerasFirst : Bool := false
  camLow : Nat := 8
  camHigh : Nat := 64
  scrLow : Nat := 32
  scrUrgent : Nat := 8
  screen : Word := 0
  camera0 : Word := 0
  camera1 : Word := 0
  ringIn : Word := 0
  window : Word := 0
  ringOut : Word := 0
deriving DecidableEq, Repr

/-- The straps latched at power-on reset (R175). -/
structure Straps where
  address : NodeAddr := 0
  master : Bool := false
deriving DecidableEq, Repr

/-- The whole part, and the queue of commands waiting. `mem` is what the part's writes have put into host memory. -/
structure State where
  pending : List Instr := []
  straps : Straps := {}
  ct : CycleTimer := {}
  ag : AxisGen := {}
  gu : GearUnit := {}
  dlc : DriveLine := {}
  ri : Ring := {}
  tc : TripCtl := {}
  cu : Vector Stream 2 := Vector.replicate 2 {}
  pm : PoolMgr := {}
  ve : ViewEngine := {}
  sc : Screen := {}
  wc : Window := {}
  mp : MemPort := {}
  mem : List Host.Cell := []
deriving DecidableEq, Repr

/-- The spec names no event that stops the part with a fault: a bus error, a window fault and every refused command leave
it running. So no command faults, and the type has no constructor. -/
inductive Fault
deriving DecidableEq, Repr

/-- Why a command has no outcome. -/
inductive Refusal
  /-- Raised by `exec` alone, for a row whose meaning is not written. Safe: nothing is claimed of it. -/
  | notModelled (mnemonic : String)
deriving DecidableEq, Repr

/-- The outcome of one command. -/
abbrev Outcome := Host.Outcome State Fault Refusal

/-- The part after power-on reset with the given straps (R1, R11, R20, R22, R61, R81, R90, R96, R109, R111, R130, R146,
R152, R155, R161, R172, R175, R176, R178, R182, R183, R185): every field at its default, the own place of the last-heard
array at sequence 0 (R93). -/
def State.powerOn (address : NodeAddr) (master : Bool) : State :=
  { straps := { address := address, master := master },
    tc := { heard := (Vector.replicate 32 none).set address (some 0) } }

/-- The part after power-on reset. The straps are inputs: log entry 4 names their value here. -/
def State.reset : State := State.powerOn 0 false

end Sys2Proof.Machine
end

