-- ==== Sys2Proof/Machine/Formats.lean ====
section
/-! DEFINITION. The byte layouts of chapter 11 but for the status page (Machine/StatusPage.lean): registers (11.2), window
records (11.3), ring frames (R190) and drive telegrams (R191). -/

namespace Sys2Proof.Machine

/-! ### Registers (R175, R176, R184, 11.2) -/

/-- IDENT as it reads. -/
def readIdent (s : State) : Word :=
  word (Config.partCode.toNat * 65536 + Config.revision.toNat * 256 + (if s.straps.master then 128 else 0)
    + s.straps.address.val)

/-- NODECTL as it reads: RUN bit 0, RESET bit 1, the mask at bits 13 to 8. -/
def readNodectl (s : State) : Word :=
  word ((if s.wc.run then 1 else 0) + (if s.wc.resetting then 2 else 0) + 256 * s.wc.mask.toNat)

/-- ATTN as it reads. -/
def readAttn (s : State) : Word := word s.wc.attn.toNat

/-- WINBASE as it reads. -/
def readWinbase (s : State) : Addr := s.wc.winbase

/-! ### Window records (11.3) -/

/-- The 64 bytes of the window header. -/
def headerBytes (h : Header) : List Byte :=
  padTo 64 (leBytes 2 Config.formatCode.toNat ++ [byte h.nodeState.code, boolByte h.pageB] ++ le32 h.cycle
    ++ le32 h.publishCount ++ le32 h.version ++ [byte h.attn.toNat])

/-- One position of the trip mirror. -/
def mirrorPosition (e : TripEntry) : List Byte :=
  padTo 32 ([byte e.key.source.val, byte e.key.kind.code, byte e.key.index, byte e.cls.level.code,
      if e.latched then 2 else 1, byte ((if e.firstPos.isSome then 1 else 0) + (if e.seq.isSome then 2 else 0)),
      byte e.count, e.seq.getD 0] ++ le32 e.firstCycle ++ le32 e.lastChange ++ le32 (e.firstPos.getD 0))

/-- The 1 KiB of the trip mirror: the entries in table order, then empty positions (R183). -/
def mirrorBytes (table : List TripEntry) : List Byte := padTo 1024 (table.flatMap mirrorPosition)

def FrameFlags.toByte (f : FrameFlags) : Byte :=
  byte ((if f.clipped then 1 else 0) + (if f.overrun then 2 else 0) + (if f.shortRow then 4 else 0)
    + (if f.gapped then 8 else 0) + (if f.truncated then 16 else 0) + (if f.incomplete then 32 else 0))

def BufState.code : BufState → Nat
  | .free => 0 | .filling => 1 | .full => 2

/-- The part-owned descriptor fields after the state byte, from offset 0x0E to the end of the descriptor, whose last two bytes
no table names (R188). -/
def descriptorFields (b : Buffer) : List Byte :=
  padTo 18 ([FrameFlags.toByte b.flags, byte b.readers] ++ le32 b.sequence ++ leBytes 2 b.repeatNo ++ leBytes 2 b.rows
    ++ le32 b.firstPos ++ leBytes 2 b.width)

/-- The 32 bytes of a pool header. -/
def poolHeaderBytes (p : Pool) : List Byte :=
  padTo 32 ([byte p.buffers.length, boolByte p.notify, 0, 0] ++ le32 p.nextSeq ++ le32 p.completed ++ le32 p.skipped)

/-- The 16 bytes of a cell from offset 0x30: result code, result flags, result data (log entry 29). -/
def resultBytes (r : Result) : List Byte := [byte r.code.code, boolByte r.clamped] ++ padTo 14 r.data

/-- The final state byte of a cell: DONE for OK, else REFUSED (R180). -/
def Result.stateByte (r : Result) : Byte := if r.code = .ok then 3 else 4

/-! ### Ring frames (R63, R190) -/

/-- One node slot of a beat, 8 bytes. -/
def slotBytes (x : Slot) : List Byte :=
  [x.mark, byte x.nodeState.code, byte x.level.code, x.entries, byte x.mode.code] ++ beBytes 3 x.spare.toNat

/-- A payload as sent, most significant byte first. -/
def payloadBytes : Payload → List Byte
  | .beat b => be32 b.cycle ++ be32 b.theta ++ be32 b.v
      ++ [byte b.lineState.code, byte b.level.code, byte b.period.code, b.flags ++ BitVec.ofBool b.heal]
      ++ be32 b.lateness ++ be32 b.transit ++ b.slots.toList.flatMap slotBytes
  | .trip t => [t.source, t.kind, t.index, t.cls, t.state, t.flags, t.sequence, t.count] ++ be32 t.cycle ++ be32 t.position
  | .view g => [g.source, g.view] ++ be32 g.sequence ++ beBytes 2 g.repeatNo.toNat ++ beBytes 2 g.w.toNat
      ++ beBytes 2 g.h.toNat ++ beBytes 2 g.index.toNat ++ beBytes 2 g.count.toNat ++ beBytes 2 g.pixelBytes.toNat
      ++ beBytes 2 g.spare.toNat ++ g.pixels
  | .probe n => [n, 0, 0, 0]
  | .probeReply n t => [n, 0, 0, 0] ++ be32 t
  | .other _ bs => bs

/-- The 16-byte header of a frame; bytes 6 to 15 are sent as they arrived. -/
def frameHeader (f : Frame) : List Byte :=
  [f.payload.kindCode, f.hop, f.source, f.dest] ++ beBytes 2 f.length.toNat ++ f.rest.toList

/-- The bytes of a frame between its delimiters, the CRC-32 last and least significant byte first. -/
def frameBytes (f : Frame) : List Byte :=
  let body := frameHeader f ++ payloadBytes f.payload
  body ++ le32 (crc32 body)

/-- R63: a frame arrives intact. -/
def Reception.intact (r : Reception) : Bool :=
  let n := r.bytes.length
  decide (r.ending = .normal) && !r.invalidSymbol && decide (20 ≤ n)
    && decide (n = 20 + beValue (field r.bytes 4 2))
    && decide (r.bytes.drop (n - 4) = le32 (crc32 (r.bytes.take (n - 4))))

/-- R63: a damaged frame that some node upstream has marked. -/
def Reception.marked (r : Reception) : Bool := decide (r.ending = .error)

/-- A frame of one of this part's own kinds, its payload length set from the payload (R190). -/
def mkFrame (hop source dest : Byte) (p : Payload) : Frame :=
  { hop := hop, source := source, dest := dest, length := BitVec.ofNat 16 (payloadBytes p).length, payload := p }

/-- The time a frame takes on a fibre, start delimiter to end delimiter, in ns (section 8.3's worked case). -/
def frameTime (f : Frame) : Nat := (1 + 16 + f.length.toNat + 4 + 1) * Config.symbolTime

/-! ### Drive telegrams (R46, R47, R191) -/

/-- A telegram's bytes with the CRC-16 appended, high byte first. -/
def withCrc (bs : List Byte) : List Byte := bs ++ beBytes 2 (crc16 bs).toNat

/-- The SETPOINT of a slot (R47) with the torque enable flag fixed at sending (R48). -/
def setpointBytes (d : DriveSlot) (torque : Bool) (cycle : Word) : List Byte :=
  withCrc (padTo 22 ([byte d.address,
      byte ((if torque then 1 else 0) + (if d.engaged then 2 else 0) + (if d.inSync then 4 else 0))]
    ++ be32 d.setpoint ++ beSigned 4 d.feedforward ++ beBytes 2 d.limit ++ beBytes 2 cycle.toNat))

/-- The last two bytes of a telegram complemented (R48). -/
def spoilCrc (bs : List Byte) : List Byte := bs.take (bs.length - 2) ++ (bs.drop (bs.length - 2)).map (~~~ ·)

/-- The SYNC of a cycle. -/
def syncBytes (cycle : Half) : List Byte := withCrc ([0] ++ beBytes 2 cycle.toNat ++ [0])

/-- An ACTUAL reply's fields (R47, R191). -/
structure ActualFields where
  ready : Bool
  driveFault : Bool
  torqueReached : Bool
  position : Word
  torque : Int
  echoed : Half
deriving DecidableEq, Repr

/-- R50: the fields of a reply that classifies valid: 24 bytes, no framing error, a correct CRC and the drive's address. -/
def readActual (address : Nat) (bytes : List Byte) (stopBitError : Bool) : Option ActualFields :=
  if stopBitError then none
  else if bytes.length ≠ 24 then none
  else if bytes.drop 22 ≠ beBytes 2 (crc16 (bytes.take 22)).toNat then none
  else if (bytes.getD 0 0).toNat ≠ address then none
  else
    let status := bytes.getD 1 0
    some { ready := status.getLsbD 0, driveFault := status.getLsbD 1, torqueReached := status.getLsbD 2,
           position := BitVec.ofNat 32 (beValue (field bytes 2 4)),
           torque := (BitVec.ofNat 16 (beValue (field bytes 6 2))).toInt,
           echoed := BitVec.ofNat 16 (beValue (field bytes 8 2)) }

end Sys2Proof.Machine
end

