-- ==== Sys2Proof/Machine/Flags.lean ====
section
/-! DEFINITION. What the part derives from its state at any moment: trip levels (R85, R101, R102, R103), unstored conditions
(R89), the CUT output (R58), the interrupt (R184), whether window traffic may be issued (R175, R187), pin levels. -/

namespace Sys2Proof.Machine

/-- The node's own address (R175). -/
def own (s : State) : NodeAddr := s.straps.address

/-- The node is the line master. -/
def isMaster (s : State) : Bool := s.straps.master

/-- Local time in ns as a number. -/
def nowOf (s : State) : Nat := s.ct.localTime.toNat

/-! ### Trip levels -/

/-- An entry whose source is this node (R87). -/
def isOwn (s : State) (e : TripEntry) : Bool := decide (e.key.source = own s)

/-- The entry with a key, where the table holds one. -/
def findEntry (s : State) (k : Key) : Option TripEntry := s.tc.table.find? fun e => decide (e.key = k)

/-- The key of a local condition: its source is this node (R86). -/
def ownKey (s : State) (kind : TripKind) (index : Nat) : Key := ⟨own s, kind, index⟩

/-- The local condition with a kind and index, where it is present. -/
def findCond (s : State) (kind : TripKind) (index : Nat) : Option Cond :=
  s.tc.conds.find? fun c => decide (c.kind = kind ∧ c.index = index)

/-- The level of the local condition set. -/
def condLevel (s : State) : Level := maxLevel (s.tc.conds.map fun c => c.cls.level)

/-- The local level (R101). -/
def localLevel (s : State) : Level :=
  Level.max (maxLevel ((s.tc.table.filter (isOwn s)).map fun e => e.cls.level)) (condLevel s)

/-- The table level (R102). -/
def tableLevel (s : State) : Level := Level.max (maxLevel (s.tc.table.map fun e => e.cls.level)) (condLevel s)

/-- The effective level (R102). -/
def effLevel (s : State) : Level := Level.max (tableLevel s) s.tc.lineTerm

/-- The level of the stamped slots of the returned slot copy (R103). -/
def copyLevel (s : State) : Level :=
  maxLevel (s.ri.copy.toList.map fun x => if x.stamped then x.level else .none)

/-- The line trip level that the rule of R103 forms at this moment. -/
def lineLevel (s : State) : Level := Level.max (tableLevel s) (copyLevel s)

/-- How many own entries the table holds (R71, R101). -/
def ownEntries (s : State) : Nat := (s.tc.table.filter (isOwn s)).length

/-- The unstored conditions (R89), earliest first: outside CONFIG, those present without an entry. -/
def unstored (s : State) : List Cond :=
  if s.ct.nodeState = .config then []
  else s.tc.conds.filter fun c => decide (findEntry s (ownKey s c.kind c.index) = none)

/-- The position a new entry records (R87). -/
def newPosition (s : State) (kind : TripKind) : Option Word :=
  if kind.axisBearing && s.gu.formed then some s.gu.thetaX else none

/-- The CUT output (R58). -/
def cutOutput (s : State) : Bool :=
  decide (effLevel s = .cut) || s.wc.resetting || decide (s.ct.nodeState = .config)

/-! ### Attention and the window -/

/-- The attention reasons by their bit (11.2). -/
inductive Reason | board | trips | frame | ring | windowFault | page
deriving DecidableEq, Repr

/-- The bit of an attention reason (11.2). -/
def Reason.bit : Reason → BitVec 6
  | .board => 1 | .trips => 2 | .frame => 4 | .ring => 8 | .windowFault => 16 | .page => 32

/-- The interrupt is wanted (R184). -/
def wanted (w : Window) : Bool := decide (w.attn &&& w.mask ≠ 0)

/-- Window traffic may be issued: the window is open, no fault stands and no node reset is in progress (R175, R176, R187). -/
def windowOn (s : State) : Bool := decide (s.wc.winbase ≠ 0) && !s.wc.fault && !s.wc.resetting

/-- Every transaction of a group has been granted and reported (R186). -/
def landed (s : State) (g : Group) : Bool := s.wc.queue.all fun t => decide (t.group ≠ g)

/-! ### Line state seen by the node (R104) -/

/-- The line state that the status page carries: the AG's on the master, that of the last taken beat elsewhere. -/
def lineStateOf (s : State) : LineState := if isMaster s then s.ag.lineState else s.tc.lineState

/-! ### Pins -/

/-- DDE: the line driver is enabled while a telegram is being sent (R44). -/
def driverEnabled (s : State) : Bool := decide ((nowOf s : Int) < s.dlc.driveUntil)

end Sys2Proof.Machine
end

