-- ==== Sys2Proof/Machine/Operands.lean ====
section
/-! DEFINITION. How an owner answers a command (R180), the checks of ranges (R188), and the packing of result data from cell
offset 0x32 on (R188). -/

namespace Sys2Proof.Machine

/-- What an owner answers at the scan: finished with a result, or long-running (R180). -/
inductive Reply
  | result (r : Result)
  | long
deriving DecidableEq, Repr

/-- DONE with result data (R180). -/
def okData (data : List Byte) : Result := { code := .ok, clamped := false, data := data }

/-- DONE without result data. -/
def okResult : Result := okData []

/-- REFUSED with a code (R180). -/
def refusal (c : ResultCode) : Result := { code := c, clamped := false, data := [] }

/-- The command completes DONE within the scan. -/
def done (s : State) : State × Reply := (s, .result okResult)

/-- The command completes DONE with result data. -/
def doneWith (s : State) (data : List Byte) : State × Reply := (s, .result (okData data))

/-- The command completes DONE with the CLAMPED flag as given. -/
def doneClamped (s : State) (clamped : Bool) (data : List Byte) : State × Reply :=
  (s, .result { code := .ok, clamped := clamped, data := data })

/-- The command is refused, and nothing of its owner changes. -/
def refuse (s : State) (c : ResultCode) : State × Reply := (s, .result (refusal c))

/-- The command is taken and stays TAKEN. -/
def longRunning (s : State) : State × Reply := (s, .long)

/-- A number lies in a range. -/
def inRange (lo hi n : Nat) : Bool := decide (lo ≤ n ∧ n ≤ hi)

/-- A section byte 1 to 4 as an index (R20). -/
def sectOf (b : Byte) : Option (Fin 4) := if b = 0 then none else finOf 4 (b.toNat - 1)

/-- A destination byte: a node address, or 63 for all nodes (section 1.2). -/
def destOf (b : Byte) : Bool := decide (b.toNat < 32 ∨ b.toNat = 63)

/-- The value of a signed 16-bit field. -/
def int16 (h : Half) : Int := h.toInt

/-- The value of a signed 32-bit field. -/
def int32 (w : Word) : Int := w.toInt

/-- A value clamped to a range, and whether that changed it (section 1.9). -/
def clamped (lo hi x : Int) : Int × Bool := (clampInt lo hi x, decide (clampInt lo hi x ≠ x))

end Sys2Proof.Machine
end

