-- ==== Sys2Proof/Machine/Ops.lean ====
section
/-! DEFINITION. The shared operations: local time with the slots that pass in it, host memory, attention and the interrupt, the
window's transactions, cell results, header and mirror writes, table changes, and edits of one record of a block. -/

namespace Sys2Proof.Machine

/-! ### The slot that passes (R70, R71, R74) -/

/-- R70: a slot is stamped in a beat of cycle `n`. -/
def stampedIn (n : Word) (x : Slot) : Bool := decide (x.mark = n.setWidth 8)

/-- The slot this node writes into a beat of cycle `n` (R71). -/
def ownSlot (s : State) (n : Word) : Slot :=
  { mark := n.setWidth 8, nodeState := s.ct.nodeState, level := localLevel s, entries := byte (ownEntries s),
    mode := s.ri.mode, spare := 0 }

/-- JOINING, ONLINE, HOLDOVER or ISOLATED: the node writes its slot (R71). -/
def writesSlot (n : NodeState) : Bool :=
  match n with
  | .joining | .online | .holdover | .isolated => true
  | .config | .passive => false

/-- The node writes its slot into the beats of others: not on the line master (R71, R75). -/
def writesSlots (s : State) : Bool := writesSlot s.ct.nodeState && !isMaster s

/-- From a BEAT's start delimiter to this node's slot, in ns (section 4.1, 11.6). -/
def slotDelay (s : State) : Nat := Config.beatSlotsAt + Config.beatSlotTime * (own s).val

/-- R71: this node's slot written into a frame that is a BEAT. -/
def stampFrame (s : State) (f : Frame) : Frame :=
  match f.payload with
  | .beat b => { f with payload := .beat { b with slots := b.slots.set (own s) (ownSlot s b.cycle) } }
  | _ => f

/-- R74: the slot of an arriving beat is in; where it came stamped, the node that writes slots has a duplicate (log entry 33). -/
def readSlot (s : State) (x : BeatInput) : BeatInput :=
  if x.stamped && decide (x.sd + slotDelay s + Config.beatSlotTime ≤ nowOf s) then
    { x with stamped := false, duplicate := x.duplicate || writesSlots s }
  else x

/-- R71: the slot of a beat on its way out is due, and takes what the node is at this moment (log entry 33). -/
def writeSlot (s : State) (x : Sending) : Sending :=
  if x.slotOwed && decide (x.startsAt + slotDelay s ≤ nowOf s) then
    { x with slotOwed := false, frame := if writesSlots s then stampFrame s x.frame else x.frame }
  else x

/-- The slots that have passed by the local time (R71, R74). -/
def passSlots (s : State) : State :=
  { s with ri := { s.ri with beatIn := s.ri.beatIn.map (readSlot s), primaryTx := s.ri.primaryTx.map (writeSlot s) } }

/-! ### Local time -/

/-- Local time reaches `t`; it never goes back (R1). Log entry 2. The slots that pass until then do so before the event that comes
at `t`, so that they show the part as it was when they passed (R71). -/
def advance (t : Time) (s : State) : State :=
  passSlots { s with ct := { s.ct with localTime := if s.ct.localTime.toNat < t.toNat then t else s.ct.localTime } }

/-! ### Host memory as the part wrote it -/

/-- The canonical form: addresses strictly rising. -/
def Memory.wf (m : List Host.Cell) : Bool := decide (m.Pairwise fun x y => x.1 < y.1)

/-- What the part last put at an address; `none` where it has written nothing (log entry 5). -/
def memRead : List Host.Cell → Nat → Option Byte
  | [], _ => none
  | (x, y) :: m, a => if a = x then some y else memRead m a

/-- One byte written. -/
def memWrite : List Host.Cell → Nat → Byte → List Host.Cell
  | [], a, b => [(a, b)]
  | (x, y) :: m, a, b =>
    if a < x then (a, b) :: (x, y) :: m else if a = x then (a, b) :: m else (x, y) :: memWrite m a b

/-- Bytes written from an address on; addresses are 64 bits wide. -/
def memWriteBytes : List Host.Cell → Addr → List Byte → List Host.Cell
  | m, _, [] => m
  | m, a, b :: bs => memWriteBytes (memWrite m a.toNat b) (a + 1) bs

/-- A write of the part reaches host memory. -/
def store (a : Addr) (bs : List Byte) (s : State) : State := { s with mem := memWriteBytes s.mem a bs }

/-- Writes of one requester reach host memory, in the order of their grants (R186; log entry 32). -/
def land (ws : List DataWrite) (s : State) : State := ws.foldl (fun s w => store w.addr w.bytes s) s

/-- The read that will report the writes granted before it is granted (R186; log entry 41). -/
def askReport (ws : List DataWrite) : List DataWrite := ws.map fun w => { w with asked := w.asked + 1 }

/-- The read behind the last write of a frame has returned: it reports a write that has as many reads behind it as some write of
the frame (R186; log entry 41). -/
def reported (unit frame : Nat) (ws : List DataWrite) (w : DataWrite) : Bool :=
  ws.any fun x => decide (x.unit = unit ∧ x.frame = frame ∧ x.asked ≤ w.asked)

/-- The writes that the return of that read reports, and those that stay on their way. -/
def reportedWrites (unit frame : Nat) (ws : List DataWrite) : List DataWrite := ws.filter (reported unit frame ws)

def remainingWrites (unit frame : Nat) (ws : List DataWrite) : List DataWrite := ws.filter fun w => !reported unit frame ws w

/-! ### Attention and the interrupt (R184) -/

/-- A reason is set; one message goes out when that makes the interrupt wanted. -/
def setAttn (r : Reason) (s : State) : State :=
  let w := { s.wc with attn := s.wc.attn ||| r.bit }
  { s with wc := { w with messages := if wanted w && !wanted s.wc then w.messages + 1 else w.messages } }

/-- A host write to NODECTL or ATTN: one message when the interrupt is wanted after it (log entry 7). -/
def asRegisterWrite (f : State → State) (s : State) : State :=
  let t := f s
  { t with wc := { t.wc with messages := if wanted t.wc then s.wc.messages + 1 else s.wc.messages } }

/-! ### Window transactions (R177, R185, R186) -/

/-- The host address of a window offset. -/
def windowAddr (s : State) (off : Nat) : Addr := s.wc.winbase + BitVec.ofNat 64 off

/-- A write of the window requester. -/
def writeItem (s : State) (g : Group) (publish : Bool) (off : Nat) (bytes : List Byte) : WinItem :=
  { group := g, publish := publish, addr := windowAddr s off, bytes := bytes }

/-- The window offset of a cell. -/
def cellOffset (c : Fin 16) : Nat := 0x400 + 64 * c.val

/-- The read whose return reports the group's writes (R186). It reads the command board, since the part reads nothing else of
the window but that and the descriptors (R175). -/
def flushItem (s : State) (g : Group) (publish : Bool) : WinItem :=
  { group := g, publish := publish, addr := windowAddr s (cellOffset 0), bytes := [] }

/-- 1 KiB as four transactions of 256 bytes. -/
def kibItems (s : State) (g : Group) (publish : Bool) (off : Nat) (bytes : List Byte) : List WinItem :=
  [0, 1, 2, 3].map fun i => writeItem s g publish (off + 256 * i) (field bytes (256 * i) 256)

/-- Transactions presented behind those already waiting (R177). -/
def issueItems (ts : List WinItem) (s : State) : State := { s with wc := { s.wc with queue := s.wc.queue ++ ts } }

/-- The window offset of a buffer's descriptor (11.3). -/
def descOffset (p : Fin 6) (b : Nat) : Nat := 0x1400 + (8 * p.val + b) * 32

/-- The window offset of a pool header (11.3). -/
def poolOffset (p : Fin 6) : Nat := 0x1A00 + 32 * p.val

/-! ### Cell results (R180) -/

/-- One cell record edited where it holds a command. -/
def modRecord (c : Fin 16) (f : CellRecord → CellRecord) (s : State) : State :=
  { s with wc := { s.wc with records := modV s.wc.records c (Option.map f) } }

/-- The write of a record's tag and result fields, and the read that reports it, where traffic may be issued (R180). -/
def issueResult (c : Fin 16) (s : State) : State :=
  match s.wc.records[c] with
  | none => s
  | some rec =>
    match rec.result with
    | none => s
    | some r =>
      if windowOn s && decide (rec.phase = .kept) then
        modRecord c (fun rec => { rec with phase := .fields })
          (issueItems [writeItem s (.cell c) false (cellOffset c + 2) (leBytes 2 rec.tag.toNat),
            writeItem s (.cell c) false (cellOffset c + 0x30) (resultBytes r), flushItem s (.cell c) false] s)
      else s

/-- A cell's command ends with a result: the record keeps it, and its write is issued or waits for the window (R180). -/
def finishCell (c : Fin 16) (r : Result) (s : State) : State :=
  issueResult c (modRecord c (fun rec => { rec with result := some r }) s)

/-- `finishCell` for a pending cell, where there is one. -/
def finishOpt (c : Option (Fin 16)) (r : Result) (s : State) : State :=
  match c with
  | none => s
  | some c => finishCell c r s

/-- `finishCell` for each of a list of pending cells, in order. -/
def finishAll (cs : List (Fin 16)) (r : Result) (s : State) : State := cs.foldl (fun s c => finishCell c r s) s

/-! ### Header and mirror (R182, R183) -/

/-- The header as last formed is written again with the changes given, and a read that reports it where a group waits. -/
def issueHeader (g : Group) (publish : Bool) (h : Header) (s : State) : State :=
  issueItems (writeItem s g publish 0 (headerBytes h) :: if g = .plain then [] else [flushItem s g publish])
    { s with wc := { s.wc with header := h } }

/-- A mirror rewrite begins (R183, steps 1 and 2; log entry 27). -/
def startMirror (s : State) : State :=
  let s := issueHeader .plain false { s.wc.header with version := 0 } s
  issueItems (kibItems s .mirror false 0x1000 (mirrorBytes s.tc.table) ++ [flushItem s .mirror false])
    { s with wc := { s.wc with mirror := some { version := s.wc.version, stale := false } } }

/-- The mirror is brought up to date: a rewrite begins, or the one in progress is marked stale (R183). -/
def refreshMirror (s : State) : State :=
  if windowOn s then
    match s.wc.mirror with
    | none => startMirror s
    | some m => { s with wc := { s.wc with mirror := some { m with stale := true } } }
  else s

/-- What the WC does at a table change (R87, R183, R184). -/
def tableChanged (s : State) : State :=
  refreshMirror (setAttn .trips { s with wc := { s.wc with version := incSkipZero s.wc.version } })

/-- The table with the entries `f` gives it, as one table change. -/
def editTable (f : List TripEntry → List TripEntry) (s : State) : State :=
  tableChanged { s with tc := { s.tc with table := f s.tc.table } }

/-! ### Edits of one record -/

def modSect (i : Fin 4) (f : Sect → Sect) (s : State) : State :=
  { s with gu := { s.gu with sections := modV s.gu.sections i f } }

def modChannel (i : Fin 12) (f : Channel → Channel) (s : State) : State :=
  { s with gu := { s.gu with channels := modV s.gu.channels i f } }

def mapSects (f : Fin 4 → Sect → Sect) (s : State) : State :=
  { s with gu := { s.gu with sections := mapV f s.gu.sections } }

def mapChannels (f : Fin 12 → Channel → Channel) (s : State) : State :=
  { s with gu := { s.gu with channels := mapV f s.gu.channels } }

def modPort (p : Port) (f : PortRec → PortRec) (s : State) : State :=
  { s with ri := { s.ri with ports := modV s.ri.ports p f } }

def modStream (u : Fin 2) (f : Stream → Stream) (s : State) : State := { s with cu := modV s.cu u f }

def modPool (p : Fin 6) (f : Pool → Pool) (s : State) : State :=
  { s with pm := { s.pm with pools := modV s.pm.pools p f } }

def modView (v : Fin 4) (f : View → View) (s : State) : State :=
  { s with ve := { s.ve with views := modV s.ve.views v f } }

def modBinding (b : Fin 4) (f : Binding → Binding) (s : State) : State :=
  { s with ve := { s.ve with bindings := modV s.ve.bindings b f } }

def modPane (p : Fin 4) (f : Pane → Pane) (s : State) : State :=
  { s with sc := { s.sc with panes := modV s.sc.panes p f } }

def modLoad (p : Fin 2) (f : PaletteLoad → PaletteLoad) (s : State) : State :=
  { s with sc := { s.sc with loads := modV s.sc.loads p f } }

/-- A change of node state sets RING (R13, R184). -/
def setNodeState (n : NodeState) (s : State) : State :=
  if s.ct.nodeState = n then s else setAttn .ring { s with ct := { s.ct with nodeState := n } }

end Sys2Proof.Machine
end

