-- ==== Sys2Proof/Machine/Levels.lean ====
section
/-! DEFINITION. What the part does at the event at which its effective level becomes STOP or CUT (R41, R42, R48, R102), and
R43's action, which ends commands in the same way. -/

namespace Sys2Proof.Machine

/-- A channel that leaves ACTIVE (R23). -/
def Channel.leaveActive (c : Channel) : Channel := { c with w := 0, c := 0, cRem := 1, join := false }

/-- A moving section becomes HELD (R41, R43). -/
def Sect.toHeld (x : Sect) : Sect :=
  { x with state := .held, jogDemand := 0, jogSpeed := 0, u := 0, q := 0, mark := false, engageCell := none,
           disengageCells := [] }

/-- JOGGING, ENGAGING, ENGAGED or RELEASING. -/
def SectionState.moving : SectionState → Bool
  | .jogging | .engaging | .engaged | .releasing => true
  | .unset | .held => false

/-- A section is forced to HELD, its pending cells ending with the results given. -/
def forceSection (engage disengage : Result) (i : Fin 4) (s : State) : State :=
  let x := s.gu.sections[i]
  finishAll x.disengageCells disengage (finishOpt x.engageCell engage (modSect i Sect.toHeld s))

/-- Every section that `p` picks is forced to HELD. DESIGN CHOICE (log entry 71): the results of several pending cells that end
at one event are issued in section order, of each section the ENGAGE before the DISENGAGE cells in the order taken. -/
def forceSections (p : SectionState → Bool) (engage disengage : Result) (s : State) : State :=
  (indices 4).foldl (fun s i => if p s.gu.sections[i].state then forceSection engage disengage i s else s) s

/-- What CUT does to a channel (R41): an ACTIVE channel becomes TRACKING, and every hold position becomes A. -/
def Channel.cutTo (c : Channel) : Channel :=
  match c.state with
  | .free => c
  | .active => { Channel.leaveActive c with state := .tracking, hold := c.a }
  | .tracking | .faulted => { c with hold := c.a }

/-- R41. -/
def cutAction (s : State) : State :=
  mapChannels (fun _ c => c.cutTo) (forceSections SectionState.moving (refusal .tripped) okResult s)

/-- R42: the jog demand of every JOGGING section becomes 0. -/
def stopAction (s : State) : State :=
  mapSects (fun _ x => if x.state = .jogging then { x with jogDemand := 0 } else x) s

/-- The exchange in progress is closed as if it had never started: its cycle is "not sent" (R48, R51). -/
def closeNotSent (s : State) : State :=
  match s.dlc.exchange with
  | none => s
  | some x =>
    modChannel x.slot.channel (fun c => { c with hist0 := .notSent }) { s with dlc := { s.dlc with exchange := none } }

/-- R48: a SETPOINT with torque enable on the line when the level becomes CUT gets its CRC complemented. -/
def spoil (s : State) : State :=
  match s.dlc.exchange with
  | none => s
  | some x =>
    if x.torque && driverEnabled s then
      closeNotSent { s with dlc := { s.dlc with telegram := spoilCrc s.dlc.telegram } }
    else s

/-- The GU and the DLC act on a level that has risen from `before` (R41, R42, R48, R102). -/
def react (before : Level) (s : State) : State :=
  let now := effLevel s
  let s := if now.isStop && !before.isStop then stopAction s else s
  if now = .cut ∧ before ≠ .cut then spoil (cutAction s) else s

/-- An event that changes a term of the effective level (R102). -/
def reacting (f : State → State) (s : State) : State := react (effLevel s) (f s)

/-- R43: the node has left ISOLATED. -/
def leaveIsolatedAction (s : State) : State :=
  mapChannels (fun _ c => if c.state = .active then { Channel.leaveActive c with hold := c.s } else c)
    (forceSections (fun x => decide (x ≠ .unset)) (refusal .cancelled) (refusal .cancelled) s)

end Sys2Proof.Machine
end

