-- ==== Sys2Proof/Machine/Take.lean ====
section
/-! DEFINITION. Taking one POSTED cell (R178, R179) with the action of its owner. -/

namespace Sys2Proof.Machine

/-- R179, steps 1 and 2 for one cell: its free record takes the command, and TAKEN is written. -/
def takeRecord (cell : Fin 16) (tag : Half) (cmd : BoardCmd) (s : State) : State :=
  let s := { s with wc := { s.wc with records := s.wc.records.set cell (some { cmd := cmd, tag := tag }) } }
  if windowOn s then issueItems [writeItem s .plain false (cellOffset cell) [2]] s else s

/-- What an owner's answer makes of the cell: an immediate result goes into the record (R180). -/
def settleReply (cell : Fin 16) (x : State × Reply) : State :=
  match x with
  | (t, .long) => t
  | (t, .result r) => finishCell cell r t

/-- R179, steps 1 to 3 for one cell, with the action of the owner. A record that holds leaves the cell alone (R178). -/
def takeAs (cell : Fin 16) (tag : Half) (cmd : BoardCmd) (act : State → State × Reply) (s : State) : State :=
  match s.wc.records[cell] with
  | some _ => s
  | none => settleReply cell (act (takeRecord cell tag cmd s))

end Sys2Proof.Machine
end

