-- ==== Sys2Proof/Machine/Gear.lean ====
section
/-! DEFINITION. The Gear Unit's sections and channels (chapter 2): the stages of the compute event and the commands. -/

namespace Sys2Proof.Machine

/-! ### Arithmetic of the stages -/

/-- R27: the increment and the new remainder. -/
def gearStep (delta n : Int) (m r : Nat) : Int × Nat :=
  let p := delta * n + (r : Int)
  (p / (m : Int), (p % (m : Int)).toNat)

/-- R34: φ and r from the extrapolated position. -/
def gearRelation (thetaX base : Word) (n : Int) (m : Nat) : Word × Nat :=
  let p := posOf (thetaX - base) * n
  (word (p / (m : Int)), (p % (m : Int)).toNat)

/-- R35: D reduced modulo 2^20 into [-2^19, 2^19). -/
def foldRevolution (d : Int) : Int := (d + 524288) % 1048576 - 524288

/-- R30: the catch-up step. -/
def catchUpStep (c : Int) (cRem maxStep : Nat) : Int :=
  clampInt (-(maxStep : Int)) (maxStep : Int) (c.tdiv (cRem : Int))

/-! ### Sections -/

/-- R27 on a section. -/
def Sect.increment (delta : Int) (x : Sect) : Sect :=
  let (q, r) := gearStep delta x.n x.m x.r
  { x with q := q, r := r, phi := word (posOf x.phi + q) }

/-- R28 on a section's own offset. -/
def Sect.slew (x : Sect) : Sect := { x with offA := moveToward x.offA x.offT x.trimStep }

/-- R34 on a section: the relation, its φ and r kept for the ENGAGE's result (R36). -/
def Sect.relate (thetaX : Word) (x : Sect) : Sect :=
  let (phi, r) := gearRelation thetaX x.base x.n x.m
  { x with phi := phi, r := r, q := 0, mark := false, relPhi := phi, relR := r }

/-- R40: the jog ramp. -/
def Sect.jogRamp (x : Sect) : Sect := { x with jogSpeed := moveToward x.jogSpeed x.jogDemand x.g }

/-- R38: the release ramp. -/
def Sect.releaseRamp (x : Sect) : Sect := { x with u := moveToward x.u 0 x.g }

/-! ### Channels -/

/-- The channel belongs to section `i`. -/
def Channel.isOf (i : Fin 4) (c : Channel) : Bool := decide (c.sect = some i)

/-- The channel is ACTIVE in section `i`. -/
def Channel.activeOf (i : Fin 4) (c : Channel) : Bool := Channel.isOf i c && decide (c.state = .active)

/-- R28 on an assigned channel's offset. -/
def Channel.slew (trimStep : Nat) (c : Channel) : Channel := { c with offA := moveToward c.offA c.offT trimStep }

/-- R32: the setpoint history moves back. -/
def Channel.shift (c : Channel) : Channel := if c.state = .free then c else { c with s2 := c.s1, s1 := c.s }

/-- R35: the engage difference, with the hold position as the setpoint (R31). -/
def Channel.differ (x : Sect) (c : Channel) : Channel :=
  let g := word (posOf x.phi + x.offA + c.offA)
  let d := posDiff c.hold g
  let f := foldRevolution d
  { c with w := d - f, c := f, cRem := x.k, join := false, s := c.hold }

/-- R31 for an ACTIVE channel of an engaging or engaged section. -/
def Channel.geared (x : Sect) (c : Channel) : Channel :=
  { c with s := word (posOf x.phi + x.offA + c.offA + c.w + c.c) }

/-- R30. -/
def Channel.catchUp (x : Sect) (c : Channel) : Channel :=
  { c with c := c.c - catchUpStep c.c c.cRem x.maxStep, cRem := max (c.cRem - 1) 1 }

/-- The setpoint moves by a speed (R38, R40). -/
def Channel.moveBy (speed : Int) (c : Channel) : Channel := { c with s := word (posOf c.s + speed) }

/-- R31 for a TRACKING or FAULTED channel, and the end of the time in which its reply counts. DESIGN CHOICE (log entry 55):
after CUT too a channel without a valid reply since its previous S keeps that S (R31), where R41 says S = A. -/
def Channel.follow (c : Channel) : Channel :=
  match c.state with
  | .tracking | .faulted => { c with s := if c.fresh then c.a else c.s, fresh := false }
  | .free | .active => { c with fresh := false }

/-- R32: the feedforward. -/
def Channel.feedforward (c : Channel) : Int := posDiff c.s c.s1

/-- R32: the in-sync indication. -/
def Channel.inSync (x : Option Sect) (c : Channel) : Bool :=
  match x with
  | none => false
  | some x => decide (c.state = .active ∧ (x.state = .engaging ∨ x.state = .engaged) ∧ c.c = 0)

/-- `f` on the ACTIVE channels of a section. -/
def onActive (i : Fin 4) (f : Channel → Channel) : State → State :=
  mapChannels fun _ c => if Channel.activeOf i c then f c else c

/-! ### The stages of a section at a compute event (R26) -/

/-- R36: the completion test. -/
def completeEngage (i : Fin 4) (s : State) : State :=
  let x := s.gu.sections[i]
  if x.state = .engaging ∧ x.mark = false
      ∧ s.gu.channels.toList.all (fun c => !Channel.activeOf i c || (decide (c.c = 0) && !c.join)) then
    finishOpt x.engageCell (okData (le32 x.relPhi ++ leBytes 2 x.relR))
      (modSect i (fun x => { x with state := .engaged, engageCell := none }) s)
  else s

/-- A ramp has ended: the section is HELD, its ACTIVE channels hold where they stand, and its pending DISENGAGE cells complete
(R37, R38, R40), in the order in which they were taken (DESIGN CHOICE, log entry 71). -/
def rampEnd (i : Fin 4) (s : State) : State :=
  let cells := s.gu.sections[i].disengageCells
  finishAll cells okResult
    (onActive i (fun c => { c with hold := c.s }) (modSect i (fun x => { x with state := .held, disengageCells := [] }) s))

/-- The compute event of a section whose engage mark is set (R34, R35, R36). -/
def stageRelation (i : Fin 4) (s : State) : State :=
  let s := modSect i (Sect.relate s.gu.thetaX) s
  completeEngage i (onActive i (Channel.differ s.gu.sections[i]) s)

/-- The compute event of an engaging or engaged section (R27, R28, R35, R30, R31, R36). -/
def stageGeared (i : Fin 4) (delta : Int) (s : State) : State :=
  let s := modSect i (fun x => Sect.slew (Sect.increment delta x)) s
  let x := s.gu.sections[i]
  let s := mapChannels (fun _ c => if Channel.isOf i c then Channel.slew x.trimStep c else c) s
  completeEngage i
    (onActive i (fun c => if c.join then Channel.differ x c else Channel.geared x (Channel.catchUp x c)) s)

/-- The compute event of a JOGGING section (R40). -/
def stageJogging (i : Fin 4) (s : State) : State :=
  let s := modSect i Sect.jogRamp s
  let x := s.gu.sections[i]
  let s := onActive i (Channel.moveBy x.jogSpeed) s
  if x.jogSpeed = 0 ∧ x.jogDemand = 0 then rampEnd i s else s

/-- The compute event of a RELEASING section (R38). -/
def stageReleasing (i : Fin 4) (s : State) : State :=
  let s := modSect i Sect.releaseRamp s
  let x := s.gu.sections[i]
  let s := onActive i (Channel.moveBy x.u) s
  if x.u = 0 then rampEnd i s else s

/-- R26: the stages of one section. -/
def stageSection (delta : Int) (i : Fin 4) (s : State) : State :=
  match s.gu.sections[i].state with
  | .unset => s
  | .held => onActive i (fun c => { c with s := c.hold }) s
  | .jogging => stageJogging i s
  | .releasing => stageReleasing i s
  | .engaging => if s.gu.sections[i].mark then stageRelation i s else stageGeared i delta s
  | .engaged => stageGeared i delta s

/-- R26: the setpoints of all channels at a compute event, with the gear input of this event. DESIGN CHOICE (log entry 71): the
sections go in the order 1 to 4, and with them the results of the cells that end at this event. -/
def computeSetpoints (delta : Int) (s : State) : State :=
  let s := mapChannels (fun _ c => Channel.shift c) s
  let s := (indices 4).foldl (fun s i => stageSection delta i s) s
  mapChannels (fun _ c => Channel.follow c) s

/-! ### Commands -/

/-- R21. -/
def ownSetSection (p : SetSectionP) (s : State) : State × Reply :=
  match sectOf p.sect with
  | none => refuse s .badParam
  | some i =>
    if int16 p.n = 0 ∨ ¬ inRange 1 32767 p.m.toNat ∨ ¬ inRange 1 4096 p.k.toNat ∨ ¬ inRange 1 1048576 p.maxStep.toNat
        ∨ p.g = 0 ∨ 4194304 < p.jogLimit.toNat ∨ 1000 < p.torqueLimit.toNat then refuse s .badParam
    else if s.gu.sections[i].state.moving then refuse s .busy
    else
      done (modSect i (fun x =>
        { x with state := .held, n := int16 p.n, m := p.m.toNat, base := p.base, trimStep := p.trimStep.toNat, k := p.k.toNat,
                 maxStep := p.maxStep.toNat, g := p.g.toNat, jogLimit := p.jogLimit.toNat,
                 torqueLimit := p.torqueLimit.toNat, r := 0 }) s)

/-- R25, direction on: a TRACKING channel of section `i` becomes ACTIVE. -/
def Channel.torqueOn (x : Sect) (c : Channel) : Channel :=
  { c with state := .active, hold := c.a,
           join := decide (x.state = .engaging ∨ x.state = .engaged) && !x.mark }

/-- R25, direction off. -/
def Channel.torqueOff (c : Channel) : Channel := { Channel.leaveActive c with state := .tracking }

/-- How many channels satisfy `p`. -/
def countChannels (p : Channel → Bool) (s : State) : Nat := (s.gu.channels.toList.filter p).length

/-- R25; its section and direction are tested before all else (log entry 18). -/
def ownTorque (p : TorqueP) (s : State) : State × Reply :=
  match sectOf p.sect, boolOf p.on with
  | some i, some false =>
    if s.gu.sections[i].state = .unset then refuse s .wrongState
    else
      doneWith (onActive i Channel.torqueOff s) (leBytes 4 (countChannels (Channel.activeOf i) s))
  | some i, some true =>
    let x := s.gu.sections[i]
    if x.state = .unset then refuse s .wrongState
    else if x.state = .jogging ∨ x.state = .releasing then refuse s .busy
    else if effLevel s = .cut then refuse s .tripped
    else
      let idle := fun (c : Channel) => Channel.isOf i c && decide (c.state = .tracking)
      doneWith (mapChannels (fun _ c => if idle c then Channel.torqueOn x c else c) s)
        (leBytes 4 (countChannels idle s))
  | _, _ => refuse s .badParam

/-- R33; its section is tested before all else (log entry 18). -/
def ownEngage (sect : Byte) (cell : Fin 16) (s : State) : State × Reply :=
  match sectOf sect with
  | none => refuse s .badParam
  | some i =>
    if s.gu.sections[i].state ≠ .held then refuse s .wrongState
    else if (effLevel s).isStop then refuse s .tripped
    else if s.ct.nodeState ≠ .online then refuse s .wrongState
    else longRunning (modSect i (fun x => { x with state := .engaging, mark := true, engageCell := some cell }) s)

/-- R37: entry to RELEASING. -/
def startRelease (i : Fin 4) (s : State) : State :=
  mapChannels (fun _ c => if Channel.isOf i c then Channel.leaveActive c else c)
    (modSect i (fun x => { x with state := .releasing, u := x.q, q := 0, mark := false, engageCell := none }) s)

/-- R37; its section is tested before all else (log entry 18). -/
def ownDisengage (sect : Byte) (cell : Fin 16) (s : State) : State × Reply :=
  match sectOf sect with
  | none => refuse s .badParam
  | some i =>
    let x := s.gu.sections[i]
    let s' := modSect i (fun x => { x with disengageCells := x.disengageCells ++ [cell] }) s
    match x.state with
    | .unset => refuse s .wrongState
    | .held => done s
    | .engaging => longRunning (finishOpt x.engageCell (refusal .cancelled) (startRelease i s'))
    | .engaged => longRunning (startRelease i s')
    | .jogging => longRunning (modSect i (fun x => { x with jogDemand := 0 }) s')
    | .releasing => longRunning s'

/-- R39; its section is tested before all else (log entry 18). -/
def ownJog (p : JogP) (s : State) : State × Reply :=
  match sectOf p.sect with
  | none => refuse s .badParam
  | some i =>
    let x := s.gu.sections[i]
    if x.state ≠ .held ∧ x.state ≠ .jogging then refuse s .wrongState
    else if x.disengageCells ≠ [] then refuse s .busy
    else if (effLevel s).isStop then refuse s .tripped
    else
      let (d, cl) := clamped (-(x.jogLimit : Int)) (x.jogLimit : Int) (int32 p.demand)
      doneClamped
        (modSect i (fun x => { x with jogDemand := d, state := if x.state = .held ∧ d ≠ 0 then .jogging else x.state }) s)
        cl []

/-- R29: the new target. -/
def trimTarget (relative : Bool) (target value : Int) : Int :=
  if relative then asSigned32 (target + value) else value

/-- R29. -/
def ownTrim (p : TrimP) (s : State) : State × Reply :=
  match boolOf p.relative with
  | none => refuse s .badParam
  | some rel =>
    let v := int32 p.value
    if p.target = 0 then
      match sectOf p.number with
      | none => refuse s .badParam
      | some i =>
        let x := s.gu.sections[i]
        if x.state = .unset then refuse s .wrongState
        else
          let t := trimTarget rel x.offT v
          doneWith (modSect i (fun x => { x with offT := t }) s) (leSigned 4 t ++ leSigned 4 x.offA)
    else if p.target = 1 then
      match finOf 12 p.number.toNat with
      | none => refuse s .badParam
      | some i =>
        let c := s.gu.channels[i]
        if c.state = .free then refuse s .wrongState
        else
          let t := trimTarget rel c.offT v
          doneWith (modChannel i (fun c => { c with offT := t }) s) (leSigned 4 t ++ leSigned 4 c.offA)
    else refuse s .badParam

/-! ### The rows of the Gear Unit -/

def execSetSection (cell : Fin 16) (tag : Half) (p : SetSectionP) (s : State) : Outcome :=
  .next (takeAs cell tag (.setSection p) (ownSetSection p) s)

def execTorque (cell : Fin 16) (tag : Half) (p : TorqueP) (s : State) : Outcome :=
  .next (takeAs cell tag (.torque p) (ownTorque p) s)

def execEngage (cell : Fin 16) (tag : Half) (sect : Byte) (s : State) : Outcome :=
  .next (takeAs cell tag (.engage sect) (ownEngage sect cell) s)

def execDisengage (cell : Fin 16) (tag : Half) (sect : Byte) (s : State) : Outcome :=
  .next (takeAs cell tag (.disengage sect) (ownDisengage sect cell) s)

def execJog (cell : Fin 16) (tag : Half) (p : JogP) (s : State) : Outcome :=
  .next (takeAs cell tag (.jog p) (ownJog p) s)

def execTrim (cell : Fin 16) (tag : Half) (p : TrimP) (s : State) : Outcome :=
  .next (takeAs cell tag (.trim p) (ownTrim p) s)

end Sys2Proof.Machine
end

