-- ==== Sys2Proof/Machine/Trips.lean ====
section
/-! DEFINITION. The Trip Controller (chapter 5): reports of conditions, the trip table, trip inputs, bursts, reconciliation,
expiry, and its commands. -/

namespace Sys2Proof.Machine

/-! ### The transmit queue (R93, R94) -/

/-- R94. -/
def queueBurst (b : QBurst) (s : State) : State :=
  if s.ct.nodeState = .config then s
  else
    match s.tc.queue.findIdx? fun x => decide (x.key = b.key) with
    | some i => if b.refresh then s else { s with tc := { s.tc with queue := s.tc.queue.set i b } }
    | none =>
      if s.tc.queue.length < Config.burstQueueSize then { s with tc := { s.tc with queue := s.tc.queue ++ [b] } }
      else { s with tc := { s.tc with suppressed := s.tc.suppressed + 1 } }

/-- The state an entry reports. -/
def TripEntry.state (e : TripEntry) : BurstState := if e.latched then .latched else .active

/-- A change burst with an entry's new state (R93). -/
def changeBurst (e : TripEntry) (s : State) : State :=
  queueBurst { key := e.key, cls := e.cls, state := e.state, refresh := false, cycle := s.ct.n, pos := e.firstPos,
               count := e.count } s

/-- The CLEARED burst of a removed entry (R93). -/
def clearedBurst (e : TripEntry) (s : State) : State :=
  queueBurst { key := e.key, cls := e.cls, state := .cleared, refresh := false, cycle := s.ct.n, pos := e.firstPos,
               count := 0 } s

/-! ### The trip table (R87, R89) -/

/-- The table without the entry of a key. -/
def dropKey (k : Key) (t : List TripEntry) : List TripEntry := t.filter fun e => decide (e.key ≠ k)

/-- The entry of a key replaced by `f` of it; a table change when a field other than the burst age changes (R87). DESIGN CHOICE (log
entry 87): an update that changes several fields of the entry is one table change, which the version counts once. -/
def updateEntry (k : Key) (f : TripEntry → TripEntry) (s : State) : State :=
  match findEntry s k with
  | none => s
  | some e =>
    let t := { s with tc := { s.tc with table := s.tc.table.map fun x => if x.key = k then f x else x } }
    if { f e with age := e.age } = e then t else tableChanged t

/-- An entry that could not be created (R89). -/
def overflow (s : State) : State := { s with tc := { s.tc with overflows := s.tc.overflows + 1 } }

/-- The first LATCHED entry of class NOTE (R89). -/
def firstLatchedNote (t : List TripEntry) : Option TripEntry := t.find? fun e => e.latched && decide (e.cls = .note)

/-- An entry is appended, subject to R89; whether it was. -/
def createEntry (e : TripEntry) (s : State) : State × Bool :=
  if s.tc.table.length < Config.tableSize then (editTable (fun t => t ++ [e]) s, true)
  else if e.cls = .note then (overflow s, false)
  else
    match firstLatchedNote s.tc.table with
    | none => (overflow s, false)
    | some old =>
      let s := editTable (dropKey old.key) s
      let s := { s with tc := { s.tc with replacements := s.tc.replacements + 1 } }
      let s := if isOwn s old then clearedBurst old s else s
      (editTable (fun t => t ++ [e]) s, true)

/-- The entry created for a local condition (R88). -/
def newOwnEntry (s : State) (c : Cond) : TripEntry :=
  { key := ownKey s c.kind c.index, cls := c.cls, latched := false, firstCycle := s.ct.n, firstPos := newPosition s c.kind,
    lastChange := s.ct.n, count := 1, seq := none, age := 0 }

/-- The own entry of a condition is created and its change burst queued (R88, R89). -/
def createOwn (c : Cond) (s : State) : State :=
  let e := newOwnEntry s c
  let r := createEntry e s
  if r.2 then changeBurst e r.1 else r.1

/-- R89: a freed place stores the unstored condition that became present earliest. -/
def storeUnstored (s : State) : State :=
  match unstored s with
  | [] => s
  | c :: _ => if s.tc.table.length < Config.tableSize then createOwn c s else s

/-- A condition is stored where the table holds no entry of its key (R87). -/
def storeCondition (s : State) (c : Cond) : State :=
  if findEntry s (ownKey s c.kind c.index) = none then createOwn c s else s

/-- Every condition present is stored, in the order in which they became present (R88, R109). -/
def storeConditions (s : State) : State := s.tc.conds.foldl storeCondition s

/-- An entry leaves the table, and its place may store an unstored condition (R89). -/
def removeEntry (k : Key) (s : State) : State := storeUnstored (editTable (dropKey k) s)

/-! ### Reports of conditions (R86, R88) -/

/-- The condition set with a condition added at its end, or its class set where it is present. -/
def putCond (c : Cond) (cs : List Cond) : List Cond :=
  if cs.any fun x => decide (x.kind = c.kind ∧ x.index = c.index) then
    cs.map fun x => if x.kind = c.kind ∧ x.index = c.index then { x with cls := c.cls } else x
  else cs ++ [c]

/-- The condition set without a condition. -/
def dropCond (kind : TripKind) (index : Nat) (cs : List Cond) : List Cond :=
  cs.filter fun x => decide (¬ (x.kind = kind ∧ x.index = index))

def setConds (f : List Cond → List Cond) (s : State) : State := { s with tc := { s.tc with conds := f s.tc.conds } }

/-- A LATCHED own entry whose condition is present again, or has occurred (R88). -/
def TripEntry.again (cls : TripClass) (n : Word) (e : TripEntry) : TripEntry :=
  { e with latched := false, count := satInc 255 e.count, cls := cls, lastChange := n }

/-- An own entry changes and its change burst is queued. -/
def updateAndBurst (k : Key) (f : TripEntry → TripEntry) (s : State) : State :=
  let t := updateEntry k f s
  match findEntry t k with
  | none => t
  | some e => changeBurst e t

/-- R88, "becomes present". DESIGN CHOICE (log entry 9): a RING_WRAP report that comes while the node reset of a PASSIVE node
is in progress is stored, and its burst queued, at once. -/
def reportPresent (kind : TripKind) (index : Nat) (cls : TripClass) : State → State :=
  reacting fun s =>
    let c : Cond := { kind := kind, index := index, cls := cls }
    let s := setConds (putCond c) s
    if s.ct.nodeState = .config then s
    else
      match findEntry s (ownKey s kind index) with
      | none => createOwn c s
      | some e => if e.latched then updateAndBurst e.key (TripEntry.again cls s.ct.n) s else s

/-- R88, "occurrence". -/
def reportOccurrence (kind : TripKind) (index : Nat) (cls : TripClass) : State → State :=
  reacting fun s =>
    let c : Cond := { kind := kind, index := index, cls := cls }
    let s := setConds (putCond c) s
    if s.ct.nodeState = .config then s
    else
      match findEntry s (ownKey s kind index) with
      | none => createOwn c s
      | some e =>
        if e.latched then updateAndBurst e.key (TripEntry.again cls s.ct.n) s
        else if e.cls = cls then updateEntry e.key (fun e => { e with count := satInc 255 e.count }) s
        else
          updateAndBurst e.key (fun e => { e with count := satInc 255 e.count, cls := cls, lastChange := s.ct.n }) s

/-- R88, "class change". -/
def reportClass (kind : TripKind) (index : Nat) (cls : TripClass) : State → State :=
  reacting fun s =>
    let s := setConds (putCond { kind := kind, index := index, cls := cls }) s
    if s.ct.nodeState = .config then s
    else
      match findEntry s (ownKey s kind index) with
      | none => s
      | some e =>
        if e.latched then s else updateAndBurst e.key (fun e => { e with cls := cls, lastChange := s.ct.n }) s

/-- R88, "becomes gone". -/
def reportGone (kind : TripKind) (index : Nat) (s : State) : State :=
  let s := setConds (dropCond kind index) s
  if s.ct.nodeState = .config then s
  else
    match findEntry s (ownKey s kind index) with
    | none => s
    | some e =>
      if e.latched then s else updateAndBurst e.key (fun e => { e with latched := true, lastChange := s.ct.n }) s

/-- The line term takes a level (R102, R103). -/
def setLineTerm (l : Level) : State → State := reacting fun s => { s with tc := { s.tc with lineTerm := l } }

/-! ### Trip inputs (R90 to R92) -/

def modInput (i : Fin 8) (f : TripInput → TripInput) (s : State) : State :=
  { s with tc := { s.tc with inputs := modV s.tc.inputs i f } }

/-- R91: a run count that has reached debounce + 1 changes the debounced state, and the condition follows it. -/
def debounceInput (i : Fin 8) (s : State) : State :=
  let x := s.tc.inputs[i]
  if x.enabled && decide (x.debounce + 1 ≤ x.run) then
    let s := modInput i (fun x => { x with tripping := !x.tripping, run := 0 }) s
    if x.tripping then reportGone .input i.val s else reportPresent .input i.val x.cls s
  else s

/-- R91: one sample of an enabled input at pin level `high`. -/
def sampleInput (i : Fin 8) (high : Bool) (s : State) : State :=
  let x := s.tc.inputs[i]
  if x.enabled then
    let trips := high != x.tripsLow
    debounceInput i
      (modInput i (fun x => { x with sampled := high, run := if trips = x.tripping then 0 else x.run + 1 }) s)
  else s

/-- The samples of an intake event (R91). DESIGN CHOICE (log entry 60): input 0 is sampled first and input 7 last, where R91
gives no order; it settles the order of the entries, bursts and unstored conditions of inputs that change at one event. -/
def sampleInputs (tin : Byte) (s : State) : State :=
  (indices 8).foldl (fun s i => sampleInput i (tin.getLsbD i.val) s) s

/-- R92 (log entry 18). -/
def ownSetTripInput (p : SetTripInputP) (s : State) : State × Reply :=
  match finOf 8 p.input.toNat, boolOf p.disable, classOf p.cls, boolOf p.tripsLow with
  | some i, some true, _, _ =>
    let x := s.tc.inputs[i]
    let s := modInput i (fun x => { x with enabled := false, run := 0, tripping := false }) s
    done (if x.enabled && x.tripping then reportGone .input i.val s else s)
  | some i, some false, some cls, some low =>
    if 15 < p.debounce.toNat then refuse s .badParam
    else
      let x := s.tc.inputs[i]
      let set := fun (x : TripInput) =>
        { x with enabled := true, cls := cls, tripsLow := low, debounce := p.debounce.toNat, run := 0 }
      if x.enabled then
        let s := modInput i set s
        done (if x.tripping && decide (x.cls ≠ cls) then reportClass .input i.val cls s else s)
      else done (modInput i (fun x => { set x with tripping := false }) s)
  | _, _, _, _ => refuse s .badParam

/-! ### Receiving bursts (R96, R97, R190) -/

/-- The sequence test of R96 against the place of the source: accepted, or which count a rejection moves. -/
inductive SeqTest | accept | duplicate | stale
deriving DecidableEq, Repr

/-- R96. -/
def seqTest (place : Option Byte) (seq : Byte) (refresh : Bool) : SeqTest :=
  if refresh then .accept
  else
    match place with
    | none => .accept
    | some p =>
      let d := (seq - p).toNat
      if d = 0 then .duplicate else if d ≤ 127 then .accept else .stale

/-- R97: an accepted burst acts on the entry with its key. -/
def applyBurst (k : Key) (cls : TripClass) (st : BurstState) (b : Burst) (s : State) : State :=
  let latched := decide (st = .latched)
  match st, findEntry s k with
  | .cleared, none => s
  | .cleared, some _ => removeEntry k s
  | _, some _ =>
    updateEntry k (fun e => { e with cls := cls, latched := latched, count := b.count.toNat, lastChange := b.cycle,
                                     seq := some b.sequence, age := 0 }) s
  | _, none =>
    (createEntry { key := k, cls := cls, latched := latched, firstCycle := b.cycle,
                   firstPos := if b.flags.getLsbD 1 then some b.position else none, lastChange := b.cycle,
                   count := b.count.toNat, seq := some b.sequence, age := 0 } s).1

/-- R96 and R97 for a burst whose fields are in range. -/
def receiveBurst (k : Key) (cls : TripClass) (st : BurstState) (b : Burst) : State → State :=
  reacting fun s =>
    match seqTest s.tc.heard[k.source] b.sequence (b.flags.getLsbD 0) with
    | .duplicate => { s with tc := { s.tc with duplicates := s.tc.duplicates + 1 } }
    | .stale => { s with tc := { s.tc with stale := s.tc.stale + 1 } }
    | .accept =>
      applyBurst k cls st b
        { s with tc := { s.tc with accepted := s.tc.accepted + 1, heard := s.tc.heard.set k.source (some b.sequence) } }

/-- A delivered burst: one whose kind, index, class or state lies outside its range is discarded (R190; log entry 8 for the
source). DESIGN CHOICE (log entry 62): a burst of another ring source whose payload names this node's own address as its source
is taken as any other, on the own sequence and own entries, where R97 speaks of remote entries alone. -/
def deliverBurst (b : Burst) (s : State) : State :=
  match finOf 32 b.source.toNat, tripKindOf b.kind, classOf b.cls, burstStateOf b.state with
  | some src, some kind, some cls, some st =>
    if b.index.toNat < kind.indices then receiveBurst ⟨src, kind, b.index.toNat⟩ cls st b s else s
  | _, _, _, _ => s

/-! ### Reconciliation and expiry (R98 to R100) -/

/-- A remote entry leaves the table and a count moves. -/
def removeCounted (count : TripCtl → TripCtl) (k : Key) (s : State) : State :=
  removeEntry k { s with tc := count s.tc }

/-- R99: the test of a remote entry against the slots, given as the level and entries of each stamped slot. -/
def reconcilable (s : State) (slot : NodeAddr → Option (Level × Nat)) (n : Word) (e : TripEntry) : Bool :=
  match slot e.key.source with
  | none => false
  | some (level, entries) =>
    !isOwn s e && decide (e.key.kind ≠ .duplicate) && decide (level.code < e.cls.level.code ∨ entries = 0)
      && newer n e.lastChange

/-- R99 and R100. -/
def reconcile (slot : NodeAddr → Option (Level × Nat)) (n : Word) (s : State) : State :=
  ((s.tc.table.filter (reconcilable s slot n)).map fun e => e.key).foldl
    (fun s k => removeCounted (fun t => { t with reconciliations := t.reconciliations + 1 }) k s) s

/-- A remote entry whose burst age has reached 2048 (R98). -/
def expired (s : State) (e : TripEntry) : Bool := !isOwn s e && decide (Config.expiryAge ≤ e.age)

/-- R98. -/
def expire (s : State) : State :=
  ((s.tc.table.filter (expired s)).map fun e => e.key).foldl
    (fun s k => removeCounted (fun t => { t with expiries := t.expiries + 1 }) k s) s

/-- R87: the burst age of every entry increments at a compute event. -/
def ageEntries (s : State) : State :=
  { s with tc := { s.tc with table := s.tc.table.map fun e => { e with age := satInc 4095 e.age } } }

/-- The first own entry with the greatest burst age (R95). -/
def oldestOwn (s : State) : Option TripEntry :=
  (s.tc.table.filter (isOwn s)).foldl
    (fun best e => match best with
      | none => some e
      | some b => if b.age < e.age then some e else some b) none

/-- R95. -/
def queueRefresh (s : State) : State :=
  if s.ct.nodeState = .config then s
  else if s.ct.n.toNat % 16 ≠ (own s).val % 16 then s
  else
    match oldestOwn s with
    | none => s
    | some e =>
      queueBurst { key := e.key, cls := e.cls, state := e.state, refresh := true, cycle := e.lastChange, pos := e.firstPos,
                   count := e.count } s

/-! ### Sending a burst (R93) -/

/-- The frame of a queued burst with the sequence it takes at its start (R93, R190). -/
def burstFrame (s : State) (b : QBurst) (seq : Byte) : Frame :=
  mkFrame 0 (byte (own s).val) 63
    (.trip { source := byte b.key.source.val, kind := byte b.key.kind.code, index := byte b.key.index,
             cls := byte b.cls.level.code, state := byte b.state.code,
             flags := byte ((if b.refresh then 1 else 0) + (if b.pos.isSome then 2 else 0)),
             sequence := seq, count := byte b.count, cycle := b.cycle, position := b.pos.getD 0 })

/-- The head of the queue starts out (R93, R94): its frame, and what the TC does. -/
def sendBurst (b : QBurst) (s : State) : Frame × State :=
  let old := (s.tc.heard[own s]).getD 0
  let seq := if b.refresh then old else old + 1
  let s1 := { s with tc := { s.tc with queue := s.tc.queue.drop 1, sent := s.tc.sent + 1,
                                       heard := s.tc.heard.set (own s) (some seq) } }
  (burstFrame s b seq, updateEntry b.key (fun e => { e with age := 0, seq := some seq }) s1)

/-! ### Commands (R105 to R108) -/

/-- The entry's occurrence count, 0 in CONFIG or unstored (R105). -/
def occurrences (s : State) (kind : TripKind) (index : Nat) : Nat :=
  if s.ct.nodeState = .config then 0
  else match findEntry s (ownKey s kind index) with
    | none => 0
    | some e => e.count

/-- R105. -/
def ownRaiseTrip (p : RaiseTripP) (s : State) : State × Reply :=
  match classOf p.cls with
  | none => refuse s .badParam
  | some cls =>
    if 15 < p.index.toNat then refuse s .badParam
    else
      let i := p.index.toNat
      let t := match findCond s .command i with
        | none => reportPresent .command i cls s
        | some c => if c.cls = cls then reportOccurrence .command i cls s else reportClass .command i cls s
      doneWith t (leBytes 4 (occurrences t .command i))

/-- R106. -/
def ownReleaseTrip (index : Byte) (s : State) : State × Reply :=
  if 15 < index.toNat then refuse s .badParam
  else match findCond s .command index.toNat with
    | none => refuse s .noSuch
    | some _ => done (reportGone .command index.toNat s)

/-- R107. -/
def ownClearTrip (p : ClearTripP) (s : State) : State × Reply :=
  match finOf 32 p.source.toNat, tripKindOf p.kind with
  | some src, some kind =>
    if kind.indices ≤ p.index.toNat then refuse s .badParam
    else if src ≠ own s then refuse s .noSuch
    else match findEntry s ⟨src, kind, p.index.toNat⟩ with
      | none => refuse s .noSuch
      | some e =>
        if e.latched then done (storeUnstored (clearedBurst e (editTable (dropKey e.key) s)))
        else refuse s .stillPresent
  | _, _ => refuse s .badParam

/-- R108. -/
def ownLineRearm (s : State) : State × Reply :=
  if !isMaster s then refuse s .notMaster
  else if s.ag.lineState ≠ .halted ∧ s.ag.lineState ≠ .torqueOff then refuse s .wrongState
  else if (lineLevel s).isStop then refuse s .tripped
  else doneWith { s with ag := { s.ag with lineState := .standstill } } [byte (lineLevel s).code]

/-! ### The rows of the Trip Controller -/

/-- INPUT_DEBOUNCE (R91; log entry 16). -/
def execInputDebounce (i : Fin 8) (s : State) : Outcome := .next (debounceInput i s)

/-- EXPIRY (R98; log entry 16). -/
def execExpiry (s : State) : Outcome := .next (expire s)

def execSetTripInput (cell : Fin 16) (tag : Half) (p : SetTripInputP) (s : State) : Outcome :=
  .next (takeAs cell tag (.setTripInput p) (ownSetTripInput p) s)

def execRaiseTrip (cell : Fin 16) (tag : Half) (p : RaiseTripP) (s : State) : Outcome :=
  .next (takeAs cell tag (.raiseTrip p) (ownRaiseTrip p) s)

def execReleaseTrip (cell : Fin 16) (tag : Half) (index : Byte) (s : State) : Outcome :=
  .next (takeAs cell tag (.releaseTrip index) (ownReleaseTrip index) s)

def execClearTrip (cell : Fin 16) (tag : Half) (p : ClearTripP) (s : State) : Outcome :=
  .next (takeAs cell tag (.clearTrip p) (ownClearTrip p) s)

def execLineRearm (cell : Fin 16) (tag : Half) (s : State) : Outcome := .next (takeAs cell tag .lineRearm ownLineRearm s)

end Sys2Proof.Machine
end

