-- ==== Sys2Proof/Machine/DriveLine.lean ====
section
/-! DEFINITION. The Drive Line Controller (chapter 3): the exchange timetable, telegrams, replies, fault detection, SYNC, and
the commands on channel records. -/

namespace Sys2Proof.Machine

/-! ### The timetable (R49, R52) -/

/-- R52: the telegram history of a channel that is not FREE moves back at a compute event. -/
def Channel.shiftHistory (c : Channel) : Channel :=
  if c.state = .free then c else { c with hist2 := c.hist1, hist1 := c.hist0, hist0 := .notSent }

/-- The values a slot's SETPOINT carries, from the channel record as the GU left it (R47). -/
def slotOf (s : State) (i : Fin 12) (start : Int) : DriveSlot :=
  let c := s.gu.channels[i]
  let x := c.sect.map fun j => s.gu.sections[j]
  { channel := i, start := start, address := c.address.getD 0, setpoint := c.s, feedforward := c.feedforward,
    engaged := x.any fun x => decide (x.state = .engaged), inSync := c.inSync x, limit := (x.map (·.torqueLimit)).getD 0 }

/-- The channel is LATE in this cycle (R49, R51). DESIGN CHOICE (log entry 70): that holds also of a channel that ASSIGN_CHANNEL
made FREE while its slot was due or open, whose FREE record then carries the mark and the history entry. -/
def markLate (i : Fin 12) (s : State) : State :=
  modChannel i (fun c => { c with late := true, hist0 := .notSent })
    { s with dlc := { s.dlc with late := s.dlc.late + 1 } }

/-- The channels from list position `k` on get their slots, or are LATE where the slot does not end by `issue` (R49). -/
def layOut (t0 issue : Int) : Nat → List (Fin 12) → State → State
  | _, [], s => s
  | k, i :: rest, s =>
    let start := t0 + (k : Int) * 12000
    let s :=
      if start + 12000 ≤ issue then
        modChannel i (fun c => { c with late := false })
          { s with dlc := { s.dlc with slots := s.dlc.slots ++ [slotOf s i start] } }
      else markLate i s
    layOut t0 issue (k + 1) rest s

/-- R51: the moment at which a waiting SYNC goes out, where `free` is that from which the line is idle for 20 bit times. -/
def syncMoment (now free : Int) (p : PendingSync) : Int := max now (min free (p.since + 5000))

/-- R44, R51: the moment from which the part's own telegrams leave the line idle for 20 bit times. A SYNC that waits is one of
them: it goes out first, takes 1.2 µs and is followed by the idle. -/
def ownFree (now free : Int) (d : DriveLine) : Int :=
  match d.sync with
  | none => d.lineFree
  | some p => max d.lineFree (syncMoment now (max d.lineFree free) p + 1600)

/-- R49 and R51: the start of the timetable, and whether it comes on a line still busy after 5 µs. DESIGN CHOICE (log entry 69):
"sends regardless" holds against other talkers alone, so that the part's own telegram is waited for beyond the 5 µs. -/
def timetableStart (now own lineFree : Int) : Int × Bool :=
  let free := max own lineFree
  if free ≤ now then (now, false)
  else if free ≤ now + 5000 then (free, false)
  else
    let t := max (now + 5000) own
    (t, decide (t < free))

/-- R49: the channels that get a slot, in order. -/
def slotOrder (s : State) : List (Fin 12) := (indices 12).filter fun i => decide (s.gu.channels[i].state ≠ .free)

/-- R49: the timetable of a cycle; `lineFree` is the moment from which the line has been idle for 20 bit times but for a SYNC
that waits (log entry 35). -/
def drawTimetable (lineFree : Time) (s : State) : State :=
  if s.ct.nodeState = .config then s
  else
    let s := mapChannels (fun _ c => c.shiftHistory) { s with dlc := { s.dlc with slots := [] } }
    let begin := timetableStart (nowOf s) (ownFree (nowOf s) lineFree.toNat s.dlc) lineFree.toNat
    let s := { s with dlc := { s.dlc with busyStart := begin.2 } }
    layOut begin.1 (s.ct.start + 1000 * (s.ct.pIs : Int)) 0 (slotOrder s) s

/-! ### Exchanges (R48, R50) -/

/-- R48: the torque enable flag at the moment a channel's telegram begins. -/
def torqueEnable (s : State) (c : Channel) : Bool :=
  decide (c.state = .active) && decide (effLevel s ≠ .cut) && decide (s.ct.nodeState ≠ .passive)

/-- R50: a slot's SETPOINT begins at `t`. A timetable that starts on a line still busy counts here (R51, R59). -/
def sendSetpoint (t : Int) (d : DriveSlot) (s : State) : State :=
  let tq := torqueEnable s s.gu.channels[d.channel]
  modChannel d.channel (fun c => { c with hist0 := if tq then .withTorque else .withoutTorque })
    { s with dlc := { s.dlc with
        slots := s.dlc.slots.drop 1
        busyStart := false
        contention := if s.dlc.busyStart then s.dlc.contention + 1 else s.dlc.contention
        begun := t
        exchange := some { slot := d, start := t, torque := tq }
        telegram := setpointBytes d tq s.ct.n
        driveUntil := t + 4800
        lineFree := t + 5200
        sent := s.dlc.sent + 1 } }

/-- R44: when a slot's SETPOINT begins: at the slot's start, and not before the line is idle for 20 bit times after the part's own
telegrams and the replies it took (log entry 69). -/
def slotBegins (s : State) (d : DriveSlot) : Int := max d.start s.dlc.lineFree

/-- SETPOINT (R50). No slot begins before a SYNC that waits (R44, R51). -/
def execSetpoint (now : Time) (s : State) : Outcome :=
  let s := advance now s
  .next <|
    match s.dlc.slots, s.dlc.exchange, s.dlc.sync with
    | d :: _, none, none => if slotBegins s d ≤ (nowOf s : Int) then sendSetpoint (slotBegins s d) d s else s
    | _, _, _ => s

/-! ### Fault detection (R53 to R56) -/

/-- R53: the FOLLOWING counter and condition at a valid reply with following error `e`. -/
def Channel.countFollowing (e : Int) (c : Channel) : Channel :=
  match c.hist2 with
  | .notSent => c
  | .withoutTorque => { c with followCtr := 0, present := { c.present with following := false } }
  | .withTorque =>
    if (c.followLimit : Int) < (e.natAbs : Int) then
      let n := satInc 15 c.followCtr
      { c with followCtr := n,
               present := { c.present with following := c.present.following || decide (c.followCount ≤ n) } }
    else { c with followCtr := 0, present := { c.present with following := false } }

/-- R55: the DRIVE_FAULT counter and condition at a valid reply. -/
def Channel.countDriveFault (indication : Bool) (c : Channel) : Channel :=
  if indication then
    { c with driveCtr := satInc 15 c.driveCtr, present := { c.present with driveFault := true } }
  else { c with driveCtr := 0, present := { c.present with driveFault := false } }

/-- R54: the NO_REPLY counter and condition at a missing or invalid reply (log entry 19). -/
def Channel.countNoReply (c : Channel) : Channel :=
  let n := satInc 15 c.noReplyCtr
  { c with noReplyCtr := n,
           present := { c.present with noReply := c.present.noReply || decide (c.missLimit ≤ n) } }

/-- R50, R52 to R55: a channel at a valid reply. -/
def Channel.takeReply (f : ActualFields) (c : Channel) : Channel :=
  let e := posDiff c.s2 f.position
  let c := { c with a := f.position, fresh := true, ready := f.ready, driveFault := f.driveFault,
                    torqueReached := f.torqueReached, torque := f.torque, err := e, noReplyCtr := 0,
                    present := { c.present with noReply := false } }
  Channel.countDriveFault f.driveFault (Channel.countFollowing e c)

def Faults.or (a b : Faults) : Faults :=
  ⟨a.noReply || b.noReply, a.following || b.following, a.driveFault || b.driveFault⟩

def Faults.and (a b : Faults) : Faults :=
  ⟨a.noReply && b.noReply, a.following && b.following, a.driveFault && b.driveFault⟩

/-- In `a` and not in `b`. -/
def Faults.minus (a b : Faults) : Faults :=
  ⟨a.noReply && !b.noReply, a.following && !b.following, a.driveFault && !b.driveFault⟩

def Faults.any (a : Faults) : Bool := a.noReply || a.following || a.driveFault

def Faults.count (a : Faults) : Nat :=
  (if a.noReply then 1 else 0) + (if a.following then 1 else 0) + (if a.driveFault then 1 else 0)

/-- R56: conditions that became present set their flags and make the channel FAULTED. -/
def Channel.setFlags (newly : Faults) (c : Channel) : Channel :=
  let c := { c with flags := c.flags.or newly }
  match c.state with
  | .active | .tracking => { Channel.leaveActive c with state := .faulted }
  | .free | .faulted => c

/-- R56: the channel's CHANNEL condition stands. -/
def Channel.conditionStands (c : Channel) : Bool := (c.flags.and c.present).any

/-- R56: what the DLC reports after a reply of channel `i` has moved its counters by `f` (log entry 10). DESIGN CHOICE (log
entry 54): a channel that ASSIGN_CHANNEL made FREE during its exchange keeps its FREE record; the node counts move. DESIGN
CHOICE (log entry 58): where ASSIGN_CHANNEL gave the channel another drive address while a slot of the old one was due or open,
a valid reply to that slot acts on the channel record as any other, so that it fills A. -/
def channelReply (i : Fin 12) (f : Channel → Channel) (s : State) : State :=
  let old := s.gu.channels[i]
  if old.state = .free then s
  else
    let c := f old
    let newly := c.present.minus old.present
    if newly.any then
      let s := modChannel i (fun _ => c.setFlags newly) s
      if (findCond s .channel i.val).isSome then reportOccurrence .channel i.val c.cls s
      else reportPresent .channel i.val c.cls s
    else
      let s := modChannel i (fun _ => c) s
      if (findCond s .channel i.val).isSome && !c.conditionStands then reportGone .channel i.val s else s

/-- The exchange in progress is at its end. -/
def endExchange (s : State) : State := { s with dlc := { s.dlc with exchange := none } }

/-- REPLY_WINDOW_CLOSE (R50): missing. -/
def execReplyWindowClose (now : Time) (s : State) : Outcome :=
  let s := advance now s
  .next <|
    match s.dlc.exchange with
    | none => s
    | some x =>
      if x.start + 6800 ≤ (nowOf s : Int) then
        let s := endExchange s
        channelReply x.slot.channel Channel.countNoReply { s with dlc := { s.dlc with missing := s.dlc.missing + 1 } }
      else s

/-- The exchange is classified invalid (R50). -/
def invalidReply (x : Exchange) (s : State) : State :=
  let s := endExchange s
  channelReply x.slot.channel Channel.countNoReply { s with dlc := { s.dlc with invalid := s.dlc.invalid + 1 } }

/-- REPLY_ABORT (R50): invalid. -/
def execReplyAbort (now : Time) (s : State) : Outcome :=
  let s := advance now s
  .next <|
    match s.dlc.exchange with
    | none => s
    | some x => if x.start + 4800 ≤ (nowOf s : Int) then invalidReply x s else s

/-- R50: a valid reply, with the sync slip test. -/
def validReply (x : Exchange) (f : ActualFields) (s : State) : State :=
  let s := endExchange s
  let slip := match s.dlc.lastSync with
    | none => false
    | some n => decide (f.echoed ≠ n)
  channelReply x.slot.channel (Channel.takeReply f)
    { s with dlc := { s.dlc with valid := s.dlc.valid + 1, slips := if slip then s.dlc.slips + 1 else s.dlc.slips,
                                 lineFree := max s.dlc.lineFree ((nowOf s : Int) + 400) } }

/-- ACTUAL (R50): the 24 bytes taken after the reply's start bit, and whether a stop bit was 0. 24 bytes take 4.8 µs, so one
that ends earlier than that after the window opened began before it and is ignored. -/
def execActual (now : Time) (bytes : List Byte) (stopBitError : Bool) (s : State) : Outcome :=
  let s := advance now s
  .next <|
    match s.dlc.exchange with
    | none => s
    | some x =>
      if x.start + 9600 ≤ (nowOf s : Int) then
        match readActual x.slot.address bytes stopBitError with
        | some f => if (nowOf s : Int) ≤ x.start + 11600 then validReply x f s else invalidReply x s
        | none => invalidReply x s
      else s

/-! ### The issue event and SYNC (R51) -/

/-- R51: a SETPOINT on the line, spoiled or not, ends with the byte in progress. The first byte of a SYNC is 0 (R45). -/
def truncateTelegram (s : State) : State :=
  if driverEnabled s && decide (s.dlc.telegram.getD 0 0 ≠ 0) then
    let n := ((nowOf s : Int) - s.dlc.begun).toNat / 200 + 1
    let e := s.dlc.begun + 200 * (n : Int)
    { s with dlc := { s.dlc with telegram := s.dlc.telegram.take n, driveUntil := e, lineFree := e + 400 } }
  else s

/-- R51: the timetable stops. -/
def stopTimetable (s : State) : State :=
  let rest := s.dlc.slots.map (·.channel)
  let s := truncateTelegram { s with dlc := { s.dlc with slots := [], busyStart := false } }
  let s := match s.dlc.exchange with
    | none => s
    | some x => markLate x.slot.channel (endExchange s)
  rest.foldl (fun s i => markLate i s) s

/-- R51, the DLC at an issue event: the timetable stops and the cycle's SYNC waits for the idle line. DESIGN CHOICE (log entry 83):
a SYNC of an earlier cycle that still waits gives way to it and is never sent. -/
def issueDrive (s : State) : State :=
  if s.ct.nodeState = .config then s
  else
    let s := stopTimetable s
    { s with dlc := { s.dlc with sync := some { cycle := s.ct.n.setWidth 16, since := nowOf s } } }

/-- The SYNC goes out. -/
def sendSync (p : PendingSync) (contended : Bool) (s : State) : State :=
  { s with dlc := { s.dlc with
      sync := none, lastSync := some p.cycle, telegram := syncBytes p.cycle, begun := (nowOf s : Int)
      driveUntil := (nowOf s : Int) + 1200
      lineFree := (nowOf s : Int) + 1600
      contention := if contended then s.dlc.contention + 1 else s.dlc.contention } }

/-- SYNC (R51): `idle` says that the line has been idle for 20 bit times as DRX shows it. -/
def execSync (now : Time) (idle : Bool) (s : State) : Outcome :=
  let s := advance now s
  .next <|
    match s.dlc.sync with
    | none => s
    | some p =>
      if idle && decide (s.dlc.lineFree ≤ (nowOf s : Int)) then sendSync p false s
      else if p.since + 5000 ≤ (nowOf s : Int) then sendSync p true s
      else s

/-! ### Commands (R24, R57) -/

/-- R24: the values of a command stored in a channel. -/
def Channel.assign (p : AssignChannelP) (i : Fin 4) (cls : TripClass) (c : Channel) : Channel :=
  { c with sect := some i, address := some p.address.toNat, followLimit := p.followLimit.toNat,
           followCount := p.followCount.toNat, missLimit := p.missLimit.toNat, cls := cls }

/-- R24: a TRACKING channel that stays TRACKING. A new drive address sets A and the counters to 0 and does not keep the
setpoint history, so that the setpoint is 0 until the new drive's first valid reply. DESIGN CHOICE (log entry 11): the last
following error, the status indications, the torque and the telegram history stay. -/
def Channel.reassign (p : AssignChannelP) (i : Fin 4) (cls : TripClass) (c : Channel) : Channel :=
  let d := Channel.assign p i cls c
  if c.address = some p.address.toNat then d
  else { d with a := 0, s := 0, s1 := 0, s2 := 0, fresh := false, followCtr := 0, noReplyCtr := 0, driveCtr := 0, present := {} }

/-- The drive address is held by another channel that is not FREE (R24). -/
def addressHeld (s : State) (i : Fin 12) (address : Nat) : Bool :=
  (indices 12).any fun j =>
    decide (j ≠ i ∧ s.gu.channels[j].state ≠ .free ∧ s.gu.channels[j].address = some address)

/-- R24. -/
def ownAssignChannel (p : AssignChannelP) (s : State) : State × Reply :=
  match finOf 12 p.channel.toNat, classOf p.cls with
  | some i, some cls =>
    let c := s.gu.channels[i]
    if (p.sect ≠ 0xFF ∧ sectOf p.sect = none) ∨ ¬ inRange 1 15 p.address.toNat ∨ ¬ inRange 1 16777216 p.followLimit.toNat
        ∨ ¬ inRange 1 15 p.followCount.toNat ∨ ¬ inRange 1 15 p.missLimit.toNat
        ∨ (p.sect ≠ 0xFF ∧ addressHeld s i p.address.toNat = true) then refuse s .badParam
    else if c.state = .active ∨ c.state = .faulted then refuse s .wrongState
    else
      match sectOf p.sect with
      | none =>
        if c.state = .free then done s
        else
          let s := modChannel i (fun _ => {}) s
          done (if (findCond s .channel i.val).isSome then reportGone .channel i.val s else s)
      | some j =>
        if s.gu.sections[j].state = .unset then refuse s .wrongState
        else if c.state = .free then done (modChannel i (fun _ => { Channel.assign p j cls {} with state := .tracking }) s)
        else done (modChannel i (Channel.reassign p j cls) s)
  | _, _ => refuse s .badParam

/-- R57 on one channel: the set flags whose conditions are gone are cleared. -/
def Channel.clearFaults (c : Channel) : Channel :=
  if c.state = .faulted then
    let f := c.flags.and c.present
    { c with flags := f, state := if f.any then .faulted else .tracking }
  else c

/-- R57 over the channels that `p` picks. -/
def clearFaults (p : Fin 12 → Bool) (s : State) : State × Reply :=
  let picked := (indices 12).filter p
  let before := picked.map fun i => s.gu.channels[i]
  let after := before.map Channel.clearFaults
  let count := fun (cs : List Channel) => (cs.map fun c => c.flags.count).sum
  let faulted := fun (cs : List Channel) => (cs.filter fun c => decide (c.state = .faulted)).length
  let cleared := count before - count after
  if cleared = 0 then refuse s .stillPresent
  else
    doneWith (mapChannels (fun i c => if p i then c.clearFaults else c) s)
      (leBytes 4 cleared ++ leBytes 4 (faulted before - faulted after) ++ leBytes 4 (count after))

/-- R57. -/
def ownClearChannelFault (channel : Byte) (s : State) : State × Reply :=
  if channel = 0xFF then
    if (indices 12).all fun i => decide (s.gu.channels[i].state ≠ .faulted) then refuse s .wrongState
    else clearFaults (fun _ => true) s
  else
    match finOf 12 channel.toNat with
    | none => refuse s .badParam
    | some i =>
      if s.gu.channels[i].state ≠ .faulted then refuse s .wrongState else clearFaults (fun j => decide (j = i)) s

def execAssignChannel (cell : Fin 16) (tag : Half) (p : AssignChannelP) (s : State) : Outcome :=
  .next (takeAs cell tag (.assignChannel p) (ownAssignChannel p) s)

def execClearChannelFault (cell : Fin 16) (tag : Half) (channel : Byte) (s : State) : Outcome :=
  .next (takeAs cell tag (.clearChannelFault channel) (ownClearChannelFault channel) s)

end Sys2Proof.Machine
end

