-- ==== Sys2Proof/Machine/Ring.lean ====
section
/-! DEFINITION. The Ring Interface (chapter 4) but for the choices of its transmitters (Machine/Transmit.lean): ports, ring
modes, repeating, damaged frames, returning beats, the present set, cable measurement and the ring commands. -/

namespace Sys2Proof.Machine

/-! ### Frames that end damaged on their way through (R64, R67) -/

/-- The copy of the frame that arrived on `port` at `sd` is damaged, with `n` bytes between the delimiters. -/
def damageCopy (port : Option Port) (sd n : Nat) (c : Copy) : Copy :=
  if c.port = port ∧ c.sd = sd then { c with damaged := some n } else c

/-- The time of a frame with `n` bytes between its delimiters. -/
def bytesTime (n : Nat) : Nat := (n + 2) * Config.symbolTime

/-- A frame on its way out ends where its arrival ended, with an error end delimiter (R64). -/
def damageSending (port : Option Port) (sd n : Nat) (x : Sending) : Sending :=
  if x.repeated = some (port, sd) then { x with damaged := true, endsAt := x.startsAt + bytesTime n } else x

/-- A place whose frame is on its way out is freed at the new end. -/
def damagePlace (port : Option Port) (sd n : Nat) (p : Place) : Place :=
  let c := damageCopy port sd n p.copy
  if p.copy.port = port ∧ p.copy.sd = sd then
    { copy := c, sentAt := p.sentAt.map fun t => t + bytesTime n - frameTime p.copy.frame }
  else p

/-! ### Ring modes (R62, R81) -/

/-- The receive fibre that feeds the primary input (R62). -/
def primaryInput : RingMode → Option Port
  | .through | .wrapB => some portA
  | .wrapA => some portB
  | .alone => none

/-- The receive fibre of a port carries only link frames (R62). -/
def linkOnly (m : RingMode) (p : Port) : Bool :=
  match m with
  | .through => false
  | .wrapA => decide (p = portA)
  | .wrapB => decide (p = portB)
  | .alone => true

/-- The RING_WRAP condition of a port stands in a mode (R81). -/
def wrapStands (m : RingMode) (p : Port) : Bool :=
  match m with
  | .through => false
  | .wrapA => decide (p = portA)
  | .wrapB => decide (p = portB)
  | .alone => true

/-- The RING_WRAP condition of a port is brought in line with the mode (log entry 23). -/
def alignWrap (p : Port) (s : State) : State :=
  let present := (findCond s .ringWrap p.val).isSome
  if wrapStands s.ri.mode p && !present then reportPresent .ringWrap p.val .note s
  else if !wrapStands s.ri.mode p && present then reportGone .ringWrap p.val s
  else s

/-- The transmit fibre that carries the primary transmitter's output (R62); in ALONE it is the node's own loop. -/
def primaryFibre : RingMode → Option Port
  | .through | .wrapA => some portB
  | .wrapB => some portA
  | .alone => none

/-- A frame whose start delimiter arrived at `sd` is still arriving: nothing has ended it (R81). -/
def arriving (now sd : Nat) (f : Frame) : Bool := decide (now < sd + frameTime f)

/-- The bytes of it that have come in behind its start delimiter. -/
def bytesIn (now sd : Nat) : Nat := (now - sd) / Config.symbolTime - 1

def copyArriving (now : Nat) (c : Copy) : Bool := c.damaged.isNone && arriving now c.sd c.frame

/-- R81: a frame in the forwarding store that is still arriving ends damaged; it keeps its place. -/
def cutPlace (now : Nat) (p : Place) : Place :=
  if copyArriving now p.copy then damagePlace p.copy.port p.copy.sd (bytesIn now p.copy.sd) p else p

/-- R81: a frame on its way out ends damaged where it is still arriving, at the point where its arrival ends (R64), and where its
own output is no longer carried as before (`moved`; log entry 12). -/
def cutSending (now : Nat) (moved : Bool) (x : Sending) : Sending :=
  let x := match x.repeated with
    | none => x
    | some (port, sd) => if !x.damaged && arriving now sd x.frame then damageSending port sd (bytesIn now sd) x else x
  if moved && decide (now < x.endsAt) then { x with damaged := true } else x

/-- A fibre's frame outside the primary transmitter is no longer carried: the primary output has the fibre now, or it was a
repeated one, which THROUGH alone carries (R62). -/
def fibreMoved (m : RingMode) (p : Port) (x : Sending) : Bool := x.repeated.isSome || decide (primaryFibre m = some p)

/-- R81: what a change of the routing does to the frames under way (log entry 12). -/
def reroute (m : RingMode) (now : Nat) (r : Ring) : Ring :=
  { r with
    mode := m, routedAt := now
    delayed := r.delayed.filter fun c => !c.secondary && !copyArriving now c
    store := r.store.map (cutPlace now)
    primaryTx := r.primaryTx.map (cutSending now (decide (primaryFibre r.mode ≠ primaryFibre m)))
    linkTx := mapV (fun p x => Option.map (fun x => cutSending now (fibreMoved m p x) x) x) r.linkTx
    beatIn := none }

/-- A change of mode (R81): the frames under way are rerouted, cut or lost, RING is set and the RING_WRAP conditions follow.
DESIGN CHOICE (log entry 84): of two conditions that change, that of port A is reported first. -/
def setMode (m : RingMode) (s : State) : State :=
  if s.ri.mode = m then s
  else alignWrap portB (alignWrap portA (setAttn .ring { s with ri := reroute m (nowOf s) s.ri }))

def isUp (s : State) (p : Port) : Bool := decide (s.ri.ports[p].state = .up)

/-- CONFIG and JOINING: the mode follows the port states (R81). -/
def modeOfPorts (s : State) : RingMode :=
  match isUp s portA, isUp s portB with
  | true, true => .through
  | false, true => .wrapA
  | true, false => .wrapB
  | false, false => .alone

/-- The node keeps a wrap once made (R81). -/
def keepsWrap (n : NodeState) : Bool :=
  match n with
  | .config | .joining => false
  | .online | .holdover | .isolated | .passive => true

/-- R81 at a change of a port's receive state; `dark` says that this port has become DARK. -/
def followPorts (p : Port) (dark : Bool) (s : State) : State :=
  if keepsWrap s.ct.nodeState then
    if dark then
      match s.ri.mode with
      | .through => setMode (if p = portA then .wrapA else .wrapB) s
      | .wrapA => if p = portB then setMode .alone s else s
      | .wrapB => if p = portA then setMode .alone s else s
      | .alone => s
    else s
  else setMode (modeOfPorts s) s

/-- The port has been UP for at least 100 ms (R81, R82). -/
def upLong (s : State) (p : Port) : Bool :=
  match s.ri.ports[p].upSince with
  | none => false
  | some t => decide (t + Config.healUpTime ≤ nowOf s)

/-- R81 at a compute event in ALONE. -/
def rejoin (s : State) : State :=
  if keepsWrap s.ct.nodeState && decide (s.ri.mode = .alone) then
    if upLong s portA then setMode .wrapB s else if upLong s portB then setMode .wrapA s else s
  else s

/-- R82 at a compute event: the heal mark is tested and cleared. -/
def testHealMark (s : State) : State :=
  let marked := s.ri.healMark
  let s := { s with ri := { s.ri with healMark := false } }
  if marked then
    match s.ri.mode with
    | .wrapA => if upLong s portA then setMode .through s else s
    | .wrapB => if upLong s portB then setMode .through s else s
    | .through | .alone => s
  else s

/-! ### Ports (R61) -/

/-- A failed probe (R78). -/
def failProbe (p : Port) : State → State :=
  modPort p fun x => { x with outstanding := none, probeFailures := x.probeFailures + 1 }

/-- PORT_DARK (R61, R78, R80, R81). -/
def execPortDark (port : Port) (now : Time) (s : State) : Outcome :=
  let s := advance now s
  .next <|
    if s.ri.ports[port].state = .dark then s
    else
      let s := if s.ri.ports[port].outstanding.isSome then failProbe port s else s
      let s := modPort port (fun x => { x with state := .dark, upSince := none, idleRun := 0, delay := none }) s
      followPorts port true (setAttn .ring s)

/-- PORT_SYNCING (R61). -/
def execPortSyncing (port : Port) (s : State) : Outcome :=
  .next <|
    if s.ri.ports[port].state = .dark then
      followPorts port false (setAttn .ring (modPort port (fun x => { x with state := .syncing, idleRun := 0 }) s))
    else s

/-- PORT_UP (R61; log entry 30). -/
def execPortUp (port : Port) (now : Time) (s : State) : Outcome :=
  let s := advance now s
  .next <|
    if s.ri.ports[port].state = .syncing then
      followPorts port false
        (setAttn .ring (modPort port (fun x => { x with state := .up, upSince := some (nowOf s), idleRun := 64 }) s))
    else s

/-- INVALID_SYMBOL (R61). -/
def execInvalidSymbol (port : Port) (s : State) : Outcome :=
  .next <|
    match s.ri.ports[port].state with
    | .up => modPort port (fun x => { x with symbolErrors := x.symbolErrors + 1 }) s
    | .syncing => modPort port (fun x => { x with idleRun := 0 }) s
    | .dark => s

/-! ### Reception (R61, R64, R69) -/

/-- R81: the frame whose start delimiter came at `sd` began under the routing that stands; one that began before is lost. -/
def routedSince (s : State) (sd : Nat) : Bool := decide (s.ri.routedAt ≤ sd)

/-- R61: a frame whose start delimiter came at `sd` is received from a port, which has been UP since then (and R81). -/
def receivedFrom (s : State) (p : Port) (sd : Nat) : Bool :=
  (s.ri.ports[p].upSince.any fun t => decide (t ≤ sd)) && routedSince s sd

/-- A frame that a port does not receive is ignored to its end; it restarts the idle count of a SYNCING port (R61). -/
def ignoreFrame (p : Port) : State → State :=
  modPort p fun x => if x.state = .syncing then { x with idleRun := 0 } else x

/-- What a frame on a receive fibre does, where the port receives it (R61). -/
def onFibre (p : Port) (sd : Nat) (f : State → State) (s : State) : State :=
  if receivedFrom s p sd then f s else ignoreFrame p s

/-- What a frame on the primary input does. In ALONE that is the node's own output through both turns, and no port (R62). -/
def onPrimary (sd : Nat) (f : State → State) (s : State) : State :=
  match primaryInput s.ri.mode with
  | none => if routedSince s sd then f s else s
  | some p => onFibre p sd f s

/-- R64, steps 2 to 4: a header makes its frame stripped, or removed for its hop count or its payload length. -/
def stripped (s : State) (h : FrameHead) : Bool := decide (h.source = byte (own s).val)

def removable (h : FrameHead) : Bool := decide (Config.maxHops ≤ h.hop.toNat ∨ Config.maxPayload < h.length.toNat)

/-- R69: an intact frame on the primary input that was neither stripped nor removed, for a destination that `dest` admits
here, is delivered. DESIGN CHOICE (log entry 91): its payload is taken by the layout of its kind, whatever its length. -/
def deliver (sd : Nat) (h : FrameHead) (dest : Byte → Bool) (f : State → State) (s : State) : State :=
  onPrimary sd (fun s => if !stripped s h && !removable h && dest h.dest then f s else s) s

/-- The destination of all nodes (section 1.2). -/
def toAll (dest : Byte) : Bool := decide (dest = 63)

/-- R69: the destinations whose VIEW frames this node takes. -/
def toNode (s : State) (dest : Byte) : Bool := decide (dest = byte (own s).val) || toAll dest

/-- TRIP (R69, R96, R97). During a node reset the TC holds its reset values: log entry 9. -/
def execTrip (d : Delivered Burst) (s : State) : Outcome :=
  .next (deliver d.sd.toNat d.toFrameHead toAll (fun s => if s.wc.resetting then s else deliverBurst d.body s) s)

/-- MISROUTED_FRAME (R62). -/
def execMisroutedFrame (port : Port) (f : FrameStart) (s : State) : Outcome :=
  .next <|
    onFibre port f.sd.toNat
      (fun s =>
        if linkOnly s.ri.mode port && decide (f.kind ≠ 4 ∧ f.kind ≠ 5) then
          { s with ri := { s.ri with misrouted := s.ri.misrouted + 1 } }
        else s) s

/-! ### Transit (R72) -/

/-- A port's cable delay, 0 while it is not measured (R72). -/
def cableDelay (s : State) (p : Port) : Word := BitVec.ofNat 32 (s.ri.ports[p].delay.getD 0)

/-- R72: the own transit of a BEAT with the field given on the primary input. -/
def ownTransit (s : State) (f : Word) : Word :=
  match s.ri.mode with
  | .through | .wrapB => f + cableDelay s portA
  | .wrapA => f + cableDelay s portB + 320
  | .alone => f + 640

/-! ### Repeating (R64, R65, R67) -/

/-- Places in use of the forwarding store at a moment (R67). -/
def placesInUse (s : State) : List Place :=
  s.ri.store.filter fun p => match p.sentAt with
    | none => true
    | some t => decide (nowOf s < t)

/-- Places whose frame's end delimiter has been sent are freed (R67). -/
def purgeStore (s : State) : State := { s with ri := { s.ri with store := placesInUse s } }

def countRemoval (s : State) : State := { s with ri := { s.ri with hopRemovals := s.ri.hopRemovals + 1 } }

/-- The frame with its hop count increased (R64). -/
def hopped (f : Frame) : Frame := { f with hop := f.hop + 1 }

/-- A copy whose repeat delay runs. -/
def holdCopy (c : Copy) (s : State) : State := { s with ri := { s.ri with delayed := s.ri.delayed ++ [c] } }

/-- R64 step 5 for a BEAT of another source: the own transit (R72), and whether the slot for this node comes stamped (R74). The
slot itself is written as the copy goes out (`writeSlot`). -/
def repeatBeat (port : Option Port) (sd : Nat) (f : Frame) (b : Beat) (s : State) : State :=
  let transit := ownTransit s b.transit
  let x : BeatInput := { sd := sd, transit := transit, stamped := stampedIn b.cycle b.slots[own s], duplicate := false }
  holdCopy { port := port, secondary := false, sd := sd, frame := hopped f, transit := transit }
    { s with ri := { s.ri with beatIn := some x } }

/-- R64 on a frame from the primary input. -/
def repeatPrimary (port : Option Port) (sd : Nat) (f : Frame) (s : State) : State :=
  if f.payload.isLink then s
  else if stripped s f.toFrameHead then s
  else if removable f.toFrameHead then countRemoval s
  else
    match f.payload with
    | .beat b => repeatBeat port sd f b s
    | _ => holdCopy { port := port, secondary := false, sd := sd, frame := hopped f } s

/-- The local time at which a header that began at `sd` is complete (section 4.1). -/
def headerEnd (sd : Time) : Time := sd + 136

/-- PRIMARY_REPEAT (R64). -/
def execPrimaryRepeat (sd : Time) (f : Frame) (s : State) : Outcome :=
  let s := purgeStore (advance (headerEnd sd) s)
  .next (onPrimary sd.toNat (repeatPrimary (primaryInput s.ri.mode) sd.toNat f) s)

/-- R65 on a frame from BRX in THROUGH. -/
def repeatSecondary (sd : Nat) (f : Frame) (s : State) : State :=
  if f.payload.isLink then s
  else if removable f.toFrameHead then countRemoval s
  else
    let transit := match f.payload with
      | .beat b => b.transit + cableDelay s portB
      | _ => 0
    holdCopy { port := some portB, secondary := true, sd := sd, frame := hopped f, transit := transit } s

/-- SECONDARY_PASS (R65). -/
def execSecondaryPass (sd : Time) (f : Frame) (s : State) : Outcome :=
  let s := purgeStore (advance (headerEnd sd) s)
  .next (if s.ri.mode = .through then onFibre portB sd.toNat (repeatSecondary sd.toNat f) s else s)

/-! ### Damaged frames (R63, R64, R74) -/

/-- R63: a receive fibre counts a damaged frame that is not marked; the loop of ALONE is none and has no count. -/
def countDamaged (rx : Reception) (input : Option Port) (s : State) : State :=
  match input with
  | none => s
  | some p => if Reception.marked rx then s else modPort p (fun x => { x with crcErrors := x.crcErrors + 1 }) s

/-- R83: a returning beat, intact or damaged (R73), enters the number that the result data give (log entry 59). -/
def countReturn (s : State) : State :=
  { s with ri := { s.ri with heal := s.ri.heal.map fun h => { h with returns := h.returns + 1 } } }

/-- R64, R73: the header that came in is that of a BEAT of this node (R190). -/
def ownBeatHeader (s : State) (bs : List Byte) : Bool :=
  decide (16 ≤ bs.length ∧ bs.getD 0 0 = 1 ∧ bs.getD 2 0 = byte (own s).val) && toAll (bs.getD 3 0)

/-- R73: a damaged frame on the line master's primary input that is its returning beat. -/
def damagedReturn (input : Option Port) (rx : Reception) (s : State) : State :=
  if isMaster s && !s.wc.resetting && decide (primaryInput s.ri.mode = input) && ownBeatHeader s rx.bytes then countReturn s else s

/-- R63, R64, R73, R74: a damaged frame ends. -/
def damageFrame (input : Option Port) (sd : Nat) (rx : Reception) (s : State) : State :=
  let n := rx.bytes.length
  let s := damagedReturn input rx (countDamaged rx input s)
  { s with ri := { s.ri with
      delayed := s.ri.delayed.map (damageCopy input sd n)
      store := s.ri.store.map (damagePlace input sd n)
      primaryTx := s.ri.primaryTx.map (damageSending input sd n)
      linkTx := mapV (fun _ x => Option.map (damageSending input sd n) x) s.ri.linkTx
      beatIn := s.ri.beatIn.filter fun b => decide (b.sd ≠ sd ∨ primaryInput s.ri.mode ≠ input) } }

/-- DAMAGED_FRAME (R63): on the fibre of a port, or, with no port, on the node's own loop, which feeds the primary input in
ALONE (R62, R64). An intact reception is none. A frame ended by its port going DARK ends before PORT_DARK of that moment (log
entry 12). -/
def execDamagedFrame (input : Option Port) (sd : Time) (rx : Reception) (s : State) : Outcome :=
  .next <|
    if Reception.intact rx then s
    else
      match input with
      | some p => onFibre p sd.toNat (damageFrame (some p) sd.toNat rx) s
      | none => if decide (s.ri.mode = .alone) && routedSince s sd.toNat then damageFrame none sd.toNat rx s else s

/-! ### Returning beats, the present set and the heal run (R73, R76, R83, R100) -/

/-- The returned slot copy of a beat (R73). -/
def slotCopy (b : Beat) : Vector CopySlot 32 :=
  mapV (fun _ x => { stamped := stampedIn b.cycle x, nodeState := x.nodeState, level := x.level, entries := x.entries.toNat,
                     mode := x.mode }) b.slots

/-- R76: the missed-slot count of an address after a returning beat. -/
def missedSlot (stamped : Bool) (count : Option Nat) : Option Nat :=
  if stamped then some 0 else count.map (satInc 255)

/-- R76: a count that has reached B makes the address missing. -/
def raiseMissing (a : NodeAddr) (s : State) : State :=
  match s.ri.present[a] with
  | none => s
  | some n =>
    if decide (s.ct.limit ≤ n) && (findCond s .nodeMissing a.val).isNone then reportPresent .nodeMissing a.val .stop s else s

/-- R76: a slot found stamped ends the condition. -/
def endMissing (a : NodeAddr) (s : State) : State :=
  if s.ri.copy[a].stamped && (findCond s .nodeMissing a.val).isSome then reportGone .nodeMissing a.val s else s

/-- R76 over the 32 slots. -/
def updatePresent (s : State) : State :=
  let s := { s with ri := { s.ri with present := mapV (fun a n => missedSlot s.ri.copy[a].stamped n) s.ri.present } }
  (indices 32).foldl (fun s a => endMissing a (raiseMissing a s)) s

/-- R83: the heal run has reached 8. A BEAT already queued keeps the HEAL it was queued with (log entry 85). -/
def completeHeal (s : State) : State :=
  match s.ri.heal with
  | none => s
  | some h =>
    if s.ri.healFlag && decide (8 ≤ s.ri.healRun) then
      finishCell h.cell (okData (leBytes 4 h.returns)) { s with ri := { s.ri with healFlag := false, heal := none } }
    else s

/-- R83: a stamped slot of the copy reports a wrap. -/
def copyWrapped (s : State) : Bool :=
  s.ri.copy.toList.any fun x => x.stamped && decide (x.mode = .wrapA ∨ x.mode = .wrapB)

/-- R83 at an intact returning beat. -/
def healReturn (s : State) : State :=
  let s := countReturn s
  let run := if s.ri.healFlag then (if copyWrapped s then 0 else s.ri.healRun + 1) else s.ri.healRun
  completeHeal { s with ri := { s.ri with healRun := run } }

/-- The slots of the copy as R100 tests them. -/
def copySlots (s : State) (a : NodeAddr) : Option (Level × Nat) :=
  let x := s.ri.copy[a]
  if x.stamped then some (x.level, x.entries) else none

/-- R73 and R100: what an intact returning beat changes. DESIGN CHOICE (log entry 61): reconciliation comes last, behind the
NODE_MISSING reports of the present set, where R73 and R100 give no order. -/
def takeReturn (b : Beat) (s : State) : State :=
  let s := { s with ri := { s.ri with copyCycle := b.cycle, copy := slotCopy b } }
  let s := healReturn (updatePresent s)
  reconcile (copySlots s) b.cycle s

/-- RETURNING_BEAT (R69, R73): the line master's own BEAT, which R64 strips and R69 delivers all the same. During a node
reset: log entry 9. -/
def execReturningBeat (d : Delivered Beat) (s : State) : Outcome :=
  .next <|
    onPrimary d.sd.toNat
      (fun s =>
        if isMaster s && !s.wc.resetting && stripped s d.toFrameHead && toAll d.dest then takeReturn d.body s else s) s

/-- NODE_MISSING (R76; log entry 16). -/
def execNodeMissing (a : NodeAddr) (s : State) : Outcome := .next (if isMaster s then raiseMissing a s else s)

/-- HEAL_RUN_COMPLETE (R83; log entry 16). -/
def execHealRunComplete (s : State) : Outcome := .next (completeHeal s)

/-! ### Cable measurement (R78 to R80) -/

/-- R78 at a compute event, for one port (log entry 22). DESIGN CHOICE (log entry 48): the probe number counts when the
PROBE is queued, where R78 says only that it increments with each PROBE. -/
def queueProbe (p : Port) (s : State) : State :=
  let x := s.ri.ports[p]
  let due := x.delay.isNone || decide (s.ct.n.toNat % 256 = (8 * (own s).val) % 256)
  if decide (s.ct.nodeState ≠ .config ∧ x.state = .up) && x.outstanding.isNone && due then
    let s := modPort p (fun x => { x with probeNumber := x.probeNumber + 1 }) s
    { s with ri := { s.ri with own := s.ri.own ++ [.probe p (x.probeNumber + 1)] } }
  else s

/-- A queued PROBE_REPLY of a port. -/
def isReplyOf (p : Port) : OwnFrame → Bool
  | .reply q _ _ _ => decide (q = p)
  | .beat _ | .probe _ _ => false

/-- R79: a reply is queued, or replaces the one queued for its port. -/
def queueReply (p : Port) (f : OwnFrame) (q : List OwnFrame) : List OwnFrame :=
  if q.any (isReplyOf p) then q.map fun x => if isReplyOf p x then f else x else q ++ [f]

/-- PROBE (R79). -/
def execProbe (port : Port) (sd : Time) (source : NodeAddr) (number : Byte) (s : State) : Outcome :=
  .next <|
    onFibre port sd.toNat
      (fun s =>
        { s with ri := { s.ri with
            own := queueReply port (.reply port (byte source.val) number sd.toNat) s.ri.own } }) s

/-- R80: what a matching reply makes of a port. -/
def measure (launched arrived turnaround : Nat) (x : PortRec) : PortRec :=
  if launched + turnaround ≤ arrived then
    { x with outstanding := none, delay := some ((arrived - launched - turnaround) / 2) }
  else { x with outstanding := none, probeFailures := x.probeFailures + 1 }

/-- R80: a reply that matches the outstanding PROBE of its port ends it. -/
def takeReplyFrame (port : Port) (sd : Nat) (number : Byte) (turnaround : Nat) (s : State) : State :=
  match s.ri.ports[port].outstanding with
  | none => s
  | some (k, launched) => if k = number then modPort port (measure launched sd turnaround) s else s

/-- PROBE_REPLY (R80). -/
def execProbeReply (port : Port) (sd : Time) (number : Byte) (turnaround : Word) (s : State) : Outcome :=
  .next (onFibre port sd.toNat (takeReplyFrame port sd.toNat number turnaround.toNat) s)

/-- PROBE_FAILED (R78). -/
def execProbeFailed (port : Port) (now : Time) (s : State) : Outcome :=
  let s := advance now s
  .next <|
    match s.ri.ports[port].outstanding with
    | none => s
    | some (_, launched) => if launched + Config.probeTimeout ≤ nowOf s then failProbe port s else s

/-! ### Commands (R77, R83) -/

def standsStill (l : LineState) : Bool := decide (l = .standstill ∨ l = .halted)

/-- R77. -/
def ownForgetNode (address : Byte) (s : State) : State × Reply :=
  if !isMaster s then refuse s .notMaster
  else match finOf 32 address.toNat with
    | none => refuse s .badParam
    | some a =>
      if !standsStill s.ag.lineState then refuse s .wrongState
      else if s.ri.present[a].isNone then refuse s .noSuch
      else
        let s := { s with ri := { s.ri with present := s.ri.present.set a none } }
        done (if (findCond s .nodeMissing a.val).isSome then reportGone .nodeMissing a.val s else s)

/-- R83. -/
def ownRingHeal (cell : Fin 16) (s : State) : State × Reply :=
  if !isMaster s then refuse s .notMaster
  else if !standsStill s.ag.lineState then refuse s .wrongState
  else if s.ri.heal.isSome then refuse s .busy
  else longRunning { s with ri := { s.ri with heal := some { cell := cell, returns := 0 }, healRun := 0 } }

/-- R83 at a cycle start of the master, after the line state is updated: the HEAL flag of the beat of this cycle. DESIGN
CHOICE (log entry 49): another line state ends the heal REFUSED also at the first cycle start after RING_HEAL was taken,
before HEAL was ever set. -/
def healAtCycleStart (s : State) : State :=
  match s.ri.heal with
  | none => s
  | some h =>
    if standsStill s.ag.lineState then { s with ri := { s.ri with healFlag := true } }
    else finishCell h.cell (refusal .wrongState) { s with ri := { s.ri with healFlag := false, heal := none } }

def execForgetNode (cell : Fin 16) (tag : Half) (address : Byte) (s : State) : Outcome :=
  .next (takeAs cell tag (.forgetNode address) (ownForgetNode address) s)

def execRingHeal (cell : Fin 16) (tag : Half) (s : State) : Outcome :=
  .next (takeAs cell tag .ringHeal (ownRingHeal cell) s)

end Sys2Proof.Machine
end

