-- ==== Sys2Proof/Machine/Pools.lean ====
section
/-! DEFINITION. The Pool Manager (chapter 7): descriptors and pool headers in the window, SET_POOL, the choice of fill targets,
completion, and readers. -/

namespace Sys2Proof.Machine

/-! ### Descriptors and headers (R132) -/

/-- One buffer record edited. -/
def modBuffer (p : Fin 6) (b : Nat) (f : Buffer → Buffer) : State → State :=
  modPool p fun x => { x with buffers := x.buffers.modify b f }

def bufferAt (s : State) (p : Fin 6) (b : Nat) : Option Buffer := s.pm.pools[p].buffers[b]?

/-- The transactions of a write of the PM, with the read that reports a change's fields; the state byte of a change follows its
landing. -/
def poolItems (s : State) (w : PoolWrite) : List WinItem :=
  match w.item with
  | .fields b bytes => [writeItem s .plain false (descOffset w.pool b + 0x0D) bytes]
  | .change b bytes _ =>
    [writeItem s (.desc w.pool b) false (descOffset w.pool b + 0x0E) bytes, flushItem s (.desc w.pool b) false]
  | .header bytes => [writeItem s .plain false (poolOffset w.pool) bytes]

/-- The write changes a state. -/
def PoolItem.changes : PoolItem → Bool
  | .change _ _ _ => true
  | .fields _ _ | .header _ => false

/-- The PM's writes go out in order, up to the fields of a change of state; that and what follows wait for its landing
(R132). -/
def issuePoolWrites : List PoolWrite → State → State
  | [], s => { s with pm := { s.pm with work := [] } }
  | w :: ws, s =>
    let t := issueItems (poolItems s w) s
    if w.item.changes then { t with pm := { t.pm with work := w :: ws } } else issuePoolWrites ws t

/-- Writes of the PM are issued, behind those that wait; none where no traffic may be issued (R132; log entry 25). -/
def queuePoolWrites (ws : List PoolWrite) (s : State) : State :=
  if windowOn s then
    if s.pm.work = [] then issuePoolWrites ws s else { s with pm := { s.pm with work := s.pm.work ++ ws } }
  else s

/-- The pool header as the record stands. -/
def headerWrite (p : Fin 6) (s : State) : PoolWrite := { pool := p, item := .header (poolHeaderBytes s.pm.pools[p]) }

/-- A count of a pool has changed (R132). -/
def writePoolHeader (p : Fin 6) (s : State) : State := queuePoolWrites [headerWrite p s] s

/-- A change of a buffer record that leaves its state as it was: every part-owned field is written, the state among them (R131,
R132). -/
def writeFields (p : Fin 6) (b : Nat) (s : State) : State :=
  match bufferAt s p b with
  | none => s
  | some x => queuePoolWrites [{ pool := p, item := .fields b (byte x.state.code :: descriptorFields x) }] s

/-- A change of a buffer record's state: the other fields, then the state byte, then the pool header (R132). -/
def writeState (p : Fin 6) (b : Nat) (s : State) : State :=
  match bufferAt s p b with
  | none => s
  | some x => queuePoolWrites [{ pool := p, item := .change b (descriptorFields x) x.state }, headerWrite p s] s

/-- A write of the PM is the change of state of a buffer. -/
def PoolWrite.isChangeOf (p : Fin 6) (b : Nat) (w : PoolWrite) : Option BufState :=
  match w.item with
  | .change c _ state => if w.pool = p ∧ c = b then some state else none
  | .fields _ _ | .header _ => none

/-- DESCRIPTOR_STATE_WRITE (R132): the fields of the first change have landed; its state byte goes out, then what follows. -/
def execDescriptorStateWrite (pool : Fin 6) (buffer : Fin 8) (s : State) : Outcome :=
  .next <|
    match s.pm.work with
    | [] => s
    | w :: ws =>
      match w.isChangeOf pool buffer.val with
      | none => s
      | some state =>
        if windowOn s && landed s (.desc pool buffer.val) then
          issuePoolWrites ws
            (issueItems [writeItem s .plain false (descOffset pool buffer.val + 0x0D) [byte state.code]] s)
        else s

/-- The writes of a pool at a resumption: every descriptor, then the header (R132, R187). -/
def rewriteOf (s : State) (p : Fin 6) : List PoolWrite :=
  let x := s.pm.pools[p]
  if x.configured then
    ((List.range x.buffers.length).filterMap fun b => (x.buffers[b]?).map fun y =>
        ({ pool := p, item := .change b (descriptorFields y) y.state, rewrite := true } : PoolWrite))
      ++ [{ headerWrite p s with rewrite := true }]
  else []

/-- The PM's rewrite at a resumption, pool by pool (R132). -/
def rewritePools (s : State) : State := queuePoolWrites ((indices 6).flatMap (rewriteOf s)) s

/-- The rewrite of a resumption is still to be finished; no fill target is chosen before (R132). -/
def rewriting (s : State) : Bool := s.pm.work.any (·.rewrite)

/-! ### Filling and completion (R136 to R139) -/

/-- A data write of a frame has been granted and no read that would report it has been granted since (R186; log entry 41). -/
def unasked (unit frame : Nat) (ws : List DataWrite) : Bool :=
  ws.any fun w => decide (w.unit = unit ∧ w.frame = frame ∧ w.asked = 0)

/-- R137: filling of a buffer starts. -/
def startFilling (p : Fin 6) (t : PendingTarget) (s : State) : State :=
  writeState p t.buffer
    (modBuffer p t.buffer (fun x => { x with state := .filling, sequence := t.sequence, repeatNo := t.repeatNo,
                                             width := t.width, firstPos := t.firstPos, flags := {}, rows := 0,
                                             readers := 0 })
      (modPool p (fun x => { x with filling := some t.buffer }) s))

/-- R138, step 5: filling of the pending target starts. -/
def startPending (p : Fin 6) (s : State) : State :=
  match s.pm.pools[p].pendingTarget with
  | none => s
  | some t => startFilling p t (modPool p (fun x => { x with pendingTarget := none }) s)

/-- R138: the frame in the FILLING buffer is complete, with the values its writer hands. -/
def completeFrame (p : Fin 6) (rows : Nat) (flags : FrameFlags) (firstPos : Word) (repeatNo : Nat) (s : State) : State :=
  match s.pm.pools[p].filling with
  | none => s
  | some b =>
    let s := modBuffer p b (fun x => { x with rows := rows, flags := flags, firstPos := firstPos, repeatNo := repeatNo,
                                              state := .full }) s
    let s := modPool p (fun x => { x with filling := none, completed := x.completed + 1 }) s
    let s := writeState p b s
    let s := if s.pm.pools[p].notify then setAttn .frame s else s
    startPending p s

/-! ### The choice of a fill target (R134, R135, R143) -/

/-- The hold of a buffer reads clear. -/
def holdClear (holds : List Byte) (b : Nat) : Bool := decide (holds.getD b 1 = 0)

/-- The indices of a pool's buffers that satisfy `q`, in order. -/
def buffersWhere (x : Pool) (q : Nat → Buffer → Bool) : List Nat :=
  (List.range x.buffers.length).filter fun b => (x.buffers[b]?).any (q b)

def isPending (x : Pool) (b : Nat) : Bool := x.pendingTarget.any fun t => decide (t.buffer = b)

def sequenceOf (x : Pool) (b : Nat) : Word := ((x.buffers[b]?).map (·.sequence)).getD 0

/-- The oldest of some buffers: equal sequences count the lower index as older (R134). DESIGN CHOICE (log entry 56): the buffers
are compared in index order, each with the oldest so far, which settles sequences 2^31 apart and orders that run in a
circle. -/
def oldestOf (x : Pool) (bs : List Nat) : Option Nat :=
  bs.foldl (fun best b => match best with
    | none => some b
    | some o => if newer (sequenceOf x o) (sequenceOf x b) then some b else some o) none

/-- The newest of some buffers (R134, R140), compared in index order as in `oldestOf` (log entry 56). -/
def newestOf (x : Pool) (bs : List Nat) : Option Nat :=
  bs.foldl (fun best b => match best with
    | none => some b
    | some o => if newer (sequenceOf x o) (sequenceOf x b) then some o else some b) none

/-- R135, steps 1 and 2. -/
def chooseBuffer (x : Pool) (holds : List Byte) : Option Nat :=
  match buffersWhere x fun b y => decide (y.state = .free) && holdClear holds b && !isPending x b with
  | b :: _ => some b
  | [] =>
    oldestOf x (buffersWhere x fun b y =>
      decide (y.state = .full ∧ y.readers = 0) && holdClear holds b && !isPending x b)

/-- R143: a request answered with skip. -/
def skipFrame (p : Fin 6) (s : State) : State :=
  if s.pm.pools[p].configured then writePoolHeader p (modPool p (fun x => { x with skipped := x.skipped + 1 }) s) else s

/-- R135: the choice, on the hold values given. -/
def makeChoice (p : Fin 6) (r : FillRequest) (holds : List Byte) (s : State) : State × Target :=
  let x := s.pm.pools[p]
  match chooseBuffer x holds with
  | none => (skipFrame p s, .skip)
  | some b =>
    let seq := r.sequence.getD x.nextSeq
    let t : PendingTarget :=
      { buffer := b, repeatNo := r.repeatNo, width := r.width, firstPos := r.firstPos, sequence := seq }
    let s := modPool p (fun x => { x with nextSeq := incSkipZero seq }) s
    (if x.filling.isNone then startFilling p t s else modPool p (fun x => { x with pendingTarget := some t }) s,
     .buffer b)

/-- R132: the hold values of a choice made during a window fault. -/
def knownHolds (x : Pool) : List Byte :=
  x.buffers.map fun y => if y.state = .free then y.lastHold.getD 1 else 1

/-- The reads of the hold bytes of a pool (R135). -/
def holdReads (p : Fin 6) (s : State) : List WinItem :=
  (List.range s.pm.pools[p].buffers.length).map fun b =>
    { group := .hold p, publish := false, addr := windowAddr s (descOffset p b + 0x0C), bytes := [] }

/-- R135: a fill-target request: the answer where it comes at once, or none while the hold reads are outstanding. -/
def requestTarget (p : Fin 6) (r : FillRequest) (s : State) : State × Option Target :=
  let x := s.pm.pools[p]
  if !x.configured then (s, some .skip)
  else if x.pendingTarget.isSome || x.request.isSome then (skipFrame p s, some .skip)
  else if windowOn s then
    (issueItems (holdReads p s) (modPool p (fun x => { x with request := some r }) s), none)
  else
    let (s, t) := makeChoice p r (knownHolds x) s
    (s, some t)

/-- The hold values read are kept as last read (R132). -/
def keepHolds (holds : List Byte) (x : Pool) : Pool :=
  { x with buffers := x.buffers.mapIdx fun b y => { y with lastHold := some (holds.getD b 1) } }

/-- R135: the choice when the hold reads have returned. -/
def answerRequest (p : Fin 6) (r : FillRequest) (holds : List Byte) (s : State) : State × Target :=
  makeChoice p r holds (modPool p (fun x => { keepHolds holds x with request := none }) s)

/-! ### Readers (R140, R141) -/

/-- R140: a buffer is eligible. -/
def eligible (x : Pool) (incomplete : Bool) (floor : Option Word) (b : Nat) (y : Buffer) : Bool :=
  decide (y.state = .full) && !isPending x b && (incomplete || !y.flags.incomplete)
    && (match floor with
        | none => true
        | some f => newer y.sequence f)

/-- R140: the newest eligible buffer. -/
def selectBuffer (s : State) (p : Fin 6) (incomplete : Bool) (floor : Option Word) : Option Nat :=
  let x := s.pm.pools[p]
  if x.configured then newestOf x (buffersWhere x (eligible x incomplete floor)) else none

/-- R140: a reader takes a buffer. -/
def takeBuffer (p : Fin 6) (b : Nat) (s : State) : State :=
  writeFields p b (modBuffer p b (fun x => { x with readers := x.readers + 1 }) s)

/-- R141: a reader releases a buffer. -/
def releaseBuffer (p : Fin 6) (b : Nat) (s : State) : State :=
  match bufferAt s p b with
  | none => s
  | some x =>
    if x.readers = 0 then s else writeFields p b (modBuffer p b (fun x => { x with readers := x.readers - 1 }) s)

/-! ### SET_POOL (R133) -/

/-- The stream of a capture pool, and the binding of a receive pool. -/
def streamOf (p : Fin 6) : Option (Fin 2) := finOf 2 p.val

def bindingOf (p : Fin 6) : Option (Fin 4) := if 2 ≤ p.val then finOf 4 (p.val - 2) else none

/-- The pool that a binding fills. -/
def recvPool (b : Fin 4) : Fin 6 := ⟨b.val + 2, by omega⟩

/-- The pool that a stream fills. -/
def capturePool (u : Fin 2) : Fin 6 := ⟨u.val, by omega⟩

/-- A stream counts as bound to its pool (R111). -/
def streamBound (x : Stream) : Bool := decide (x.state ≠ .idle) || !x.frames.isEmpty

/-- A receive pool is bound, or a frame of its binding has not yet completed (R133, R155). -/
def bindingHolds (x : Binding) : Bool := x.source.isSome || !x.frames.isEmpty

/-- R133: the pool is in use. -/
def poolInUse (s : State) (p : Fin 6) : Bool :=
  let x := s.pm.pools[p]
  (streamOf p).any (fun u => streamBound s.cu[u]) || (bindingOf p).any (fun b => bindingHolds s.ve.bindings[b])
    || x.buffers.any (fun y => decide (0 < y.readers)) || x.filling.isSome || x.pendingTarget.isSome

/-- A descriptor's configuration group serves (R131, R133). -/
def descOk (d : DescRead) : Bool := decide (d.address.toNat % 64 = 0 ∧ d.capacity ≠ 0 ∧ d.stride ≠ 0)

/-- A buffer as SET_POOL leaves it (R133). -/
def newBuffer (d : DescRead) : Buffer := { address := d.address, capacity := d.capacity.toNat, stride := d.stride.toNat }

/-- R133. -/
def ownSetPool (p : SetPoolP) (descs : List DescRead) (s : State) : State × Reply :=
  match finOf 6 p.pool.toNat, boolOf p.notify with
  | some i, some notify =>
    let n := p.count.toNat
    if ¬ inRange 2 8 n then refuse s .badParam
    else if poolInUse s i then refuse s .busy
    else if descs.length < n ∨ (descs.take n).all descOk = false then refuse s .badParam
    else
      let s := modPool i (fun x => { x with configured := true, notify := notify, completed := 0, skipped := 0,
                                            buffers := (descs.take n).map newBuffer }) s
      let s := (List.range n).foldl (fun s b => writeState i b s) s
      doneWith s (byte n :: le32 s.pm.pools[i].nextSeq)
  | _, _ => refuse s .badParam

def execSetPool (cell : Fin 16) (tag : Half) (p : SetPoolP) (descs : List DescRead) (s : State) : Outcome :=
  .next (takeAs cell tag (.setPool p descs) (ownSetPool p descs) s)

end Sys2Proof.Machine
end

