-- ==== Sys2Proof/Machine/Screen.lean ====
section
/-! DEFINITION. The Screen Controller (chapter 9): raster, panes, palettes, backlight, the screen FIFO and the frame signature. -/

namespace Sys2Proof.Machine

/-! ### Geometry (R164, R168) -/

/-- Pixel clocks of a line. -/
def totalLine (x : Screen) : Nat := x.width + x.hFront + x.hSync + x.hBack

/-- Lines of a frame. -/
def totalFrame (x : Screen) : Nat := x.height + x.vFront + x.vSync + x.vBack

/-- The active line at a line of the frame (R164). -/
def activeLine (x : Screen) (line : Nat) : Option Nat :=
  if x.vSync + x.vBack ≤ line ∧ line < x.vSync + x.vBack + x.height then some (line - (x.vSync + x.vBack)) else none

/-- The active pixel at a pixel clock of a line (R164). -/
def activePixel (x : Screen) (p : Nat) : Option Nat :=
  if x.hSync + x.hBack ≤ p ∧ p < x.hSync + x.hBack + x.width then some (p - (x.hSync + x.hBack)) else none

/-- R168: a pixel lies in a pane's clipped rectangle. -/
def covers (f : PaneSet) (width height px py : Nat) : Bool :=
  f.enable && decide (f.x ≤ px ∧ px < min (f.x + f.w) width ∧ f.y ≤ py ∧ py < min (f.y + f.h) height)

/-- R168, steps 1 and 2: the pane a pixel belongs to. -/
def paneAt (x : Screen) (px py : Nat) : Option (Fin 4) :=
  [3, 2, 1, 0].find? fun i : Fin 4 => covers x.panes[i].inForce x.width x.height px py

/-- R168, steps 3 and 4: the source byte a pixel needs, where it needs one. -/
def needAt (x : Screen) (px py : Nat) : Option Need :=
  match paneAt x px py with
  | none => none
  | some i =>
    let f := x.panes[i].inForce
    match x.panes[i].source with
    | none => none
    | some src =>
      let col := f.sx + (px - f.x) / f.zoom
      let row := f.sy + (py - f.y) / f.zoom
      if src.width ≤ col ∨ src.rows ≤ row then none else some { line := py, pane := i, row := row, col := col }

/-- The host address of a source byte (R167). -/
def needAddr (x : Screen) (n : Need) : Nat :=
  match x.panes[n.pane].source with
  | none => 0
  | some src => src.address.toNat + n.row * src.stride + n.col

/-- The palette of a pane for the frame (R171). -/
def paletteOf (x : Screen) (i : Fin 4) : Fin 2 := if x.panes[i].inForce.tint && x.alarm then 1 else 0

/-- A pixel of the same line at or after `px` uses the byte (R173). -/
def usedFrom (x : Screen) (n : Need) (px : Nat) : Bool :=
  let f := x.panes[n.pane].inForce
  let base := f.x + (n.col - f.sx) * f.zoom
  (List.range f.zoom).any fun i => decide (px ≤ base + i) && decide (needAt x (base + i) n.line = some n)

/-! ### Fetching (R173) -/

/-- The source bytes of an active line, each once, in raster order. -/
def lineNeeds (x : Screen) (line : Nat) : List Need :=
  (List.range x.width).filterMap fun px =>
    match needAt x px line with
    | none => none
    | some n =>
      let f := x.panes[n.pane].inForce
      let base := f.x + (n.col - f.sx) * f.zoom
      let earlier := (List.range f.zoom).any fun i => decide (base + i < px) && decide (needAt x (base + i) line = some n)
      if earlier then none else some n

/-- The bytes still to fetch of the first line from `line` on that has any, with that line and how many of it were fetched;
`fuel` bounds the lines. -/
def toFetch (x : Screen) : Nat → Nat → Nat → Option (Nat × Nat × List Need)
  | 0, _, _ => none
  | fuel + 1, line, skip =>
    match (lineNeeds x line).drop skip with
    | [] => toFetch x fuel (line + 1) 0
    | n :: rest => some (line, skip, n :: rest)

/-- What remains to fetch of the frame; nothing after the active end (R173). -/
def fetchNext (x : Screen) : Option (Nat × Nat × List Need) :=
  if x.enabled && !x.latched && x.panes.toList.any (fun p => p.source.isSome) then
    toFetch x (x.height - x.fetchLine) x.fetchLine x.fetchAt
  else none

/-- The fill of the screen FIFO (R173, R185). DESIGN CHOICE (log entry 75): the bytes on their way count beside those held. -/
def fifoFill (x : Screen) : Nat := x.fifo.length + (x.reads.map (·.length)).sum

/-- The first bytes that one read can bring: consecutive addresses, one 256-byte block, room in the FIFO (R173, R186). DESIGN
CHOICE (log entry 96): a read is as long as these allow within one line, where the rules leave the split into reads open. -/
def readRun (x : Screen) : Nat → Nat → List Need → List Need
  | 0, _, _ => []
  | _, _, [] => []
  | room + 1, a, n :: rest =>
    if needAddr x n = a then
      n :: (if (a + 1) % Config.transactionSize = 0 then [] else readRun x room (a + 1) rest)
    else []

/-- The next pane read. -/
def nextRead (x : Screen) : Option (Nat × Nat × List Need) :=
  match fetchNext x with
  | none => none
  | some (line, skip, ns) =>
    match ns with
    | [] => none
    | n :: _ =>
      match readRun x (Config.screenFifoSize - fifoFill x) (needAddr x n) ns with
      | [] => none
      | run => some (line, skip, run)

/-! ### Frame start (R166, R167, R169 to R172) -/

/-- R172: the duty of a code. -/
def dutyOf (square : Bool) (c : Nat) : Nat := if square then c * c * 4095 / 65025 else c * 4095 / 255

/-- R172: the duty that the settings and the alarm mark give. -/
def formDuty (x : Screen) : Nat :=
  if x.enabled then dutyOf x.square (if x.alarm then max x.code x.alarmMin else x.code) else 0

/-- R166, step 1. -/
def applyPanes (s : State) : State :=
  let panes := mapV (fun _ (p : Pane) => { p with inForce := p.waiting.getD p.inForce, waiting := none }) s.sc.panes
  { s with sc := { s.sc with panes := panes } }

/-- The result data of FLIP_PANE: the shown buffer (R169). -/
def shownData (shownB : Bool) : List Byte := [boolByte shownB]

/-- A pending flip ends; with `apply` the shown buffer changes over (R169). -/
def endFlip (apply : Bool) (i : Fin 4) (s : State) : State :=
  let p := s.sc.panes[i]
  match p.flip with
  | none => s
  | some cell =>
    let shown := if apply then !p.shownB else p.shownB
    finishCell cell { code := if apply then .ok else .cancelled, clamped := false, data := shownData shown }
      (modPane i (fun p => { p with shownB := shown, flip := none }) s)

/-- R166, step 2. DESIGN CHOICE (log entry 78): several pending flips end in the order of their panes. -/
def applyFlips (s : State) : State :=
  (indices 4).foldl (fun s i => endFlip s.sc.panes[i].inForce.host i s) s

/-- The palette takes its load store, and the load completes (R170). -/
def takePalette (i : Fin 2) (s : State) : State :=
  let l := s.sc.loads[i]
  if l.state = .complete then
    finishOpt l.cell okResult
      (modLoad i (fun l => { l with state := .idle, cell := none })
        { s with sc := { s.sc with palettes := s.sc.palettes.set i l.store } })
  else s

/-- R166, step 3. -/
def takePalettes (s : State) : State := (indices 2).foldl (fun s i => takePalette i s) s

/-- R166, step 4. -/
def fixAlarm (s : State) : State :=
  let x := { s.sc with alarm := (effLevel s).isStop }
  { s with sc := { x with dutyFormed := formDuty x } }

/-- A pane releases the buffer it holds (R141). -/
def releaseHeld (i : Fin 4) (s : State) : State :=
  match s.sc.panes[i].held with
  | none => s
  | some (p, b) => releaseBuffer p b (modPane i (fun x => { x with held := none }) s)

/-- R167: an enabled IMAGE pane selects. -/
def selectPane (i : Fin 4) (s : State) : State :=
  let f := s.sc.panes[i].inForce
  match selectBuffer s f.pool f.incomplete none with
  | none => releaseHeld i s
  | some b =>
    if s.sc.panes[i].held = some (f.pool, b) then s
    else takeBuffer f.pool b (modPane i (fun x => { x with held := some (f.pool, b) }) (releaseHeld i s))

/-- The source that a pane's held buffer gives (R167). -/
def heldSource (s : State) (i : Fin 4) : Option PaneSource :=
  match s.sc.panes[i].held with
  | none => none
  | some (p, b) =>
    (bufferAt s p b).map fun y =>
      { address := y.address, stride := y.stride, width := min y.width y.stride, rows := y.rows }

/-- The source of a HOST pane (R167). -/
def hostSource (p : Pane) : PaneSource :=
  let f := p.inForce
  { address := if p.shownB then f.bufB else f.bufA, stride := f.hostStride, width := min f.hostWidth f.hostStride,
    rows := f.hostRows }

/-- R167 for one pane. -/
def choosePane (i : Fin 4) (s : State) : State :=
  let f := s.sc.panes[i].inForce
  if !f.enable then modPane i (fun p => { p with source := none }) (releaseHeld i s)
  else if f.host then modPane i (fun p => { p with source := some (hostSource p) }) (releaseHeld i s)
  else
    let s := selectPane i s
    modPane i (fun p => { p with source := heldSource s i }) s

/-- R166, step 5. DESIGN CHOICE (log entry 77): the panes choose in the order 0 to 3. -/
def choosePanes (s : State) : State := (indices 4).foldl (fun s i => choosePane i s) s

/-- The reads in flight whose data will be discarded (R163, R173). -/
def discardReads (x : Screen) : Screen := { x with reads := x.reads.map fun _ => [] }

/-- R166, step 6, and the signature's start (R174). -/
def startFetch (s : State) : State :=
  { s with sc := { discardReads s.sc with fifo := [], fetchLine := 0, fetchAt := 0, running := 0xFFFF, latched := false,
                                          position := some (0, 0) } }

/-- R166. -/
def frameStart (s : State) : State := startFetch (choosePanes (fixAlarm (takePalettes (applyFlips (applyPanes s)))))

/-- The raster stands at the end of a frame, where the next one starts (R164). -/
def atFrameEnd (x : Screen) : Bool := decide (x.position = some (totalFrame x, 0))

/-- SCREEN_FRAME_START (R164, R166). -/
def execScreenFrameStart (s : State) : Outcome :=
  .next (if s.sc.enabled && atFrameEnd s.sc then frameStart s else s)

/-- The last active pixel of the frame has been output (R164). -/
def activeOver (x : Screen) : Bool :=
  match x.position with
  | none => false
  | some (line, p) =>
    let past := x.vSync + x.vBack + x.height
    decide (past ≤ line ∨ (past = line + 1 ∧ x.hSync + x.hBack + x.width ≤ p))

/-- ACTIVE_END (R164, R174). -/
def execActiveEnd (s : State) : Outcome :=
  .next <|
    if s.sc.enabled && !s.sc.latched && activeOver s.sc then
      { s with sc := { s.sc with signature := s.sc.running, frames := s.sc.frames + 1, latched := true } }
    else s

/-! ### Pixels (R164, R168, R173, R174) -/

/-- The raster's next position; after the last line it waits for the frame start. -/
def nextPosition (x : Screen) (line p : Nat) : Nat × Nat :=
  if p + 1 < totalLine x then (line, p + 1) else (line + 1, 0)

/-- The byte in the FIFO. -/
def fifoByte (x : Screen) (n : Need) : Option Byte := (x.fifo.find? fun e => decide (e.1 = n)).map (·.2)

/-- The colour bytes in the order in which they enter the signature (R174). -/
def colourBytes (c : BitVec 24) : List Byte := [c.extractLsb' 16 8, c.extractLsb' 8 8, c.extractLsb' 0 8]

/-- The colour of an active pixel, and whether it is an underrun (R168, R173). -/
def pixelColour (x : Screen) (px py : Nat) : BitVec 24 × Bool :=
  match needAt x px py with
  | none => (x.fill, false)
  | some n =>
    match fifoByte x n with
    | none => (x.fill, true)
    | some b => ((x.palettes[paletteOf x n.pane]).getD b.toNat 0, false)

/-- A byte whose last pixel on its line has been output leaves the FIFO (R173). -/
def freeByte (x : Screen) (px py : Nat) : List (Need × Byte) :=
  match needAt x px py with
  | none => x.fifo
  | some n => if usedFrom x n (px + 1) then x.fifo else x.fifo.filter fun e => decide (e.1 ≠ n)

/-- R164 to R174 at one pixel clock (log entry 46 for PCLK). -/
def pixelClock (line p : Nat) (x : Screen) : Screen :=
  let y := { x with pclk := true, hs := decide (p < x.hSync), vs := decide (line < x.vSync), position := some (nextPosition x line p) }
  match activeLine x line, activePixel x p with
  | some py, some px =>
    let (c, under) := pixelColour x px py
    { y with de := true, rgb := c, fifo := freeByte x px py, running := crc16From x.running (colourBytes c)
             underruns := if under then x.underruns + 1 else x.underruns }
  | _, _ => { y with de := false, rgb := 0 }

/-- SCREEN_PIXEL (R164, R173). -/
def execScreenPixel (s : State) : Outcome :=
  .next <|
    match s.sc.enabled, s.sc.position with
    | true, some (line, p) => if line < totalFrame s.sc then { s with sc := pixelClock line p s.sc } else s
    | _, _ => s

/-- Some pixel that needs the byte has not passed (R173). -/
def stillNeeded (x : Screen) (n : Need) : Bool :=
  match x.position with
  | none => false
  | some (line, p) =>
    let at0 := x.vSync + x.vBack + n.line
    if line < at0 then true else if at0 < line then false else usedFrom x n (p - (x.hSync + x.hBack))

/-- SCREEN_READ_RETURN (R173): the data of the oldest pane read in flight. DESIGN CHOICE (log entry 67): the pane reads end in
the order in which they were issued, where R173 gives none. -/
def execScreenReadReturn (data : List Byte) (s : State) : Outcome :=
  .next <|
    match s.sc.reads with
    | [] => s
    | ns :: rest =>
      let got := (ns.zip (padTo ns.length data)).filter fun e => stillNeeded s.sc e.1
      { s with sc := { s.sc with reads := rest, fifo := s.sc.fifo ++ got } }

/-- R173: the oldest pane read in flight ended in a bus error (log entry 67). -/
def paneReadError (s : State) : State :=
  match s.sc.reads with
  | [] => s
  | _ :: rest => { s with sc := { s.sc with reads := rest, readErrors := s.sc.readErrors + 1 } }

/-- PWM_PERIOD_START (R172; log entry 31). -/
def execPwmPeriodStart (s : State) : Outcome :=
  let duty := if s.sc.enabled then s.sc.dutyFormed else 0
  .next { s with sc := { s.sc with duty := duty, blpwm := decide (0 < duty) } }

/-! ### Palettes (R170) -/

/-- 256 entries from 768 bytes. -/
def paletteEntries : Nat → List Byte → List (BitVec 24)
  | 0, _ => []
  | n + 1, bs => (bs.getD 0 0 ++ bs.getD 1 0 ++ bs.getD 2 0 : BitVec 24) :: paletteEntries n (bs.drop 3)

/-- PALETTE_READ_DONE (R170). -/
def execPaletteReadDone (palette : Fin 2) (data : List Byte) (s : State) : Outcome :=
  .next <|
    let l := s.sc.loads[palette]
    if l.state = .reading ∧ 768 ≤ l.issued then
      if l.busError then
        finishOpt l.cell { code := .cancelled, clamped := false, data := [1] }
          (modLoad palette (fun l => { l with state := .idle, cell := none }) s)
      else
        let s := modLoad palette (fun l => { l with state := .complete, store := paletteEntries 256 data }) s
        if s.sc.enabled then s else takePalette palette s
    else s

/-- R170: a read of a load ended in a bus error. DESIGN CHOICE (log entry 76): the load stays READING, and its reads not yet
issued still go out, until the last of them has ended. -/
def paletteReadError (palette : Fin 2) : State → State :=
  modLoad palette fun l => if l.state = .reading then { l with busError := true } else l

/-! ### Commands (R162, R163, R165, R169, R170, R172) -/

/-- R162. -/
def ownSetScreen (p : SetScreenP) (s : State) : State × Reply :=
  if ¬ inRange 320 1280 p.width.toNat ∨ ¬ inRange 240 1024 p.height.toNat ∨ ¬ inRange 25 110 p.clock.toNat
      ∨ p.hFront = 0 ∨ p.hSync = 0 ∨ p.hBack = 0 ∨ p.vFront = 0 ∨ p.vSync = 0 ∨ p.vBack = 0 then refuse s .badParam
  else if s.sc.enabled then refuse s .busy
  else
    done { s with sc := { s.sc with
        width := p.width.toNat, height := p.height.toNat, clock := p.clock.toNat, hFront := p.hFront.toNat
        hSync := p.hSync.toNat, hBack := p.hBack.toNat, vFront := p.vFront.toNat, vSync := p.vSync.toNat
        vBack := p.vBack.toNat, fill := (p.red ++ p.green ++ p.blue : BitVec 24) } }

/-- R163: the frame time in µs. -/
def frameMicros (x : Screen) : Nat := totalLine x * totalFrame x / x.clock

/-- R163, "off": the raster stops. DESIGN CHOICE (log entries 78 and 90): the panes go in the order 0 to 3, each releasing its buffer
before its pending flip ends, and the palettes that are COMPLETE are taken after them, 0 before 1. -/
def stopScreen (s : State) : State :=
  let s := { s with sc := { discardReads s.sc with
      enabled := false, position := none, fifo := [], pclk := false, hs := false, vs := false, de := false, rgb := 0, alarm := false
      dutyFormed := 0, duty := 0, blpwm := false } }
  let s := (indices 4).foldl (fun s i => endFlip true i (modPane i (fun p => { p with source := none }) (releaseHeld i s))) s
  takePalettes s

/-- R163. -/
def ownScreenEnable (on : Byte) (s : State) : State × Reply :=
  match boolOf on with
  | none => refuse s .badParam
  | some true =>
    if s.sc.enabled then done s
    else doneWith (frameStart { s with sc := { s.sc with enabled := true } }) (leBytes 4 (frameMicros s.sc))
  | some false => done (if s.sc.enabled then stopScreen s else s)

/-- R165: the rectangle clipped against the screen is smaller than given or empty. -/
def rectClipped (x : Screen) (f : PaneSet) : Bool :=
  decide (min (f.x + f.w) x.width - f.x < f.w ∨ min (f.y + f.h) x.height - f.y < f.h)

/-- R165: the values of a SET_PANE, where every one lies in its range. -/
def paneOf (p : SetPaneP) : Option PaneSet :=
  match boolOf p.enable, boolOf p.host, finOf 6 p.pool.toNat, boolOf p.incomplete, boolOf p.tint with
  | some enable, some host, some pool, some incomplete, some tint =>
    if ¬ (p.zoom = 1 ∨ p.zoom = 2 ∨ p.zoom = 4) ∨ p.hostStride = 0 ∨ ¬ inRange 1 4096 p.hostWidth.toNat
        ∨ ¬ inRange 1 4096 p.hostRows.toNat ∨ 1279 < p.x.toNat ∨ 1023 < p.y.toNat ∨ ¬ inRange 1 1280 p.w.toNat
        ∨ ¬ inRange 1 1024 p.h.toNat then none
    else
      some { enable := enable, host := host, pool := pool, incomplete := incomplete, bufA := p.bufA, bufB := p.bufB,
             hostStride := p.hostStride.toNat, hostWidth := p.hostWidth.toNat, hostRows := p.hostRows.toNat,
             x := p.x.toNat, y := p.y.toNat, w := p.w.toNat, h := p.h.toNat, sx := p.sx.toNat, sy := p.sy.toNat,
             zoom := p.zoom.toNat, tint := tint }
  | _, _, _, _, _ => none

/-- R165. -/
def ownSetPane (p : SetPaneP) (s : State) : State × Reply :=
  match finOf 4 p.pane.toNat, paneOf p with
  | some i, some f => doneClamped (modPane i (fun x => { x with waiting := some f }) s) (rectClipped s.sc f) []
  | _, _ => refuse s .badParam

/-- R169. -/
def ownFlipPane (pane : Byte) (cell : Fin 16) (s : State) : State × Reply :=
  match finOf 4 pane.toNat with
  | none => refuse s .badParam
  | some i =>
    let p := s.sc.panes[i]
    if (p.waiting.getD p.inForce).host = false then refuse s .wrongState
    else if p.flip.isSome then refuse s .busy
    else if s.sc.enabled then longRunning (modPane i (fun p => { p with flip := some cell }) s)
    else doneWith (modPane i (fun p => { p with shownB := !p.shownB }) s) (shownData (!p.shownB))

/-- R170. DESIGN CHOICE (log entry 99): a load is TAKEN for BUSY until its cell completes, though the cell shows TAKEN until its
final state byte has landed (R180). -/
def ownLoadPalette (p : LoadPaletteP) (cell : Fin 16) (s : State) : State × Reply :=
  match finOf 2 p.palette.toNat with
  | none => refuse s .badParam
  | some i =>
    if s.sc.loads[i].cell.isSome then refuse s .busy
    else
      longRunning (modLoad i (fun l => { l with state := .reading, cell := some cell, address := p.address, issued := 0,
                                                busError := false }) s)

/-- R172 (log entry 28). -/
def ownSetBacklight (p : SetBacklightP) (s : State) : State × Reply :=
  match boolOf p.square with
  | none => refuse s .badParam
  | some square =>
    let x := { s.sc with code := p.code.toNat, square := square, alarmMin := p.alarmMin.toNat }
    doneWith { s with sc := { x with dutyFormed := formDuty x } } (leBytes 2 (formDuty x))

def execSetScreen (cell : Fin 16) (tag : Half) (p : SetScreenP) (s : State) : Outcome :=
  .next (takeAs cell tag (.setScreen p) (ownSetScreen p) s)

def execScreenEnable (cell : Fin 16) (tag : Half) (on : Byte) (s : State) : Outcome :=
  .next (takeAs cell tag (.screenEnable on) (ownScreenEnable on) s)

def execSetPane (cell : Fin 16) (tag : Half) (p : SetPaneP) (s : State) : Outcome :=
  .next (takeAs cell tag (.setPane p) (ownSetPane p) s)

def execFlipPane (cell : Fin 16) (tag : Half) (pane : Byte) (s : State) : Outcome :=
  .next (takeAs cell tag (.flipPane pane) (ownFlipPane pane cell) s)

def execLoadPalette (cell : Fin 16) (tag : Half) (p : LoadPaletteP) (s : State) : Outcome :=
  .next (takeAs cell tag (.loadPalette p) (ownLoadPalette p cell) s)

def execSetBacklight (cell : Fin 16) (tag : Half) (p : SetBacklightP) (s : State) : Outcome :=
  .next (takeAs cell tag (.setBacklight p) (ownSetBacklight p) s)

end Sys2Proof.Machine
end

