-- ==== Sys2Proof/Machine/Capture.lean ====
section
/-! DEFINITION. The Capture Units (chapter 6): streams, trigger planning and firing, rows, the camera FIFO, web break. -/

namespace Sys2Proof.Machine

/-! ### Frame geometry (R114) -/

/-- R114: the rows of a frame. -/
def rowsPerFrame (pitch : Nat) : Nat := ceilDiv 1048576 pitch

/-- R114: the next row after a row. -/
def rowAfter (pitch : Nat) (r : NextRow) : NextRow :=
  if r.j + 1 < rowsPerFrame pitch then
    { frame := r.frame, j := r.j + 1, pos := r.pos + BitVec.ofNat 32 pitch }
  else { frame := r.frame + 1, j := 0, pos := r.pos - BitVec.ofNat 32 (r.j * pitch) + 1048576 }

/-- R113: the least boundary strictly ahead of θ_x. -/
def boundaryAhead (phase : Nat) (thetaX : Word) : Word :=
  let d := (((phase : Int) - posOf thetaX) % 1048576).toNat
  thetaX + BitVec.ofNat 32 (if d = 0 then 1048576 else d)

/-- R122: the stored bytes of a row. -/
def storedWidth (x : StreamSet) : Nat := x.rowPixels / x.decimation

/-! ### Frames and missing rows (R124) -/

/-- A frame with `k` more rows resolved as missing. -/
def CapFrame.miss (k : Nat) (f : CapFrame) : CapFrame :=
  if k = 0 then f
  else { f with resolved := min f.rows (f.resolved + k), flags := { f.flags with gapped := true, incomplete := true } }

/-- Every row of a frame not yet resolved is resolved as missing. -/
def CapFrame.missRest (f : CapFrame) : CapFrame := CapFrame.miss (f.rows - f.resolved) f

/-- Every row of a frame is resolved (R124). -/
def CapFrame.whole (f : CapFrame) : Bool := decide (f.rows ≤ f.resolved)

/-- Missing rows of a frame that no row has begun. -/
def addAhead (n : Word) (k : Nat) (l : List (Word × Nat)) : List (Word × Nat) :=
  if l.any fun x => decide (x.1 = n) then l.map fun x => if x.1 = n then (x.1, x.2 + k) else x else l ++ [(n, k)]

/-- `k` rows of frame `n` are resolved as missing (R124). -/
def missRows (n : Word) (k : Nat) (x : Stream) : Stream :=
  if k = 0 then x
  else if x.frames.any fun f => decide (f.number = n) then
    { x with frames := x.frames.map fun f => if f.number = n then CapFrame.miss k f else f }
  else { x with ahead := addAhead n k x.ahead }

/-- One frame of a stream edited. -/
def modFrame (id : Nat) (f : CapFrame → CapFrame) (x : Stream) : Stream :=
  { x with frames := x.frames.map fun y => if y.id = id then f y else y }

def frameById (x : Stream) (id : Nat) : Option CapFrame := x.frames.find? fun f => decide (f.id = id)

/-- Where the data of a frame go; a frame no longer in progress has no buffer. -/
def frameTarget (x : Stream) (id : Nat) : Target :=
  match frameById x id with
  | none => .skip
  | some f => f.target

/-- R124: frames without a buffer complete when every row of them is resolved. -/
def settle (x : Stream) : Stream :=
  let gone := fun (f : CapFrame) => decide (f.target = .skip) && f.whole
  { x with frames := x.frames.filter fun f => !gone f
           counts := { x.counts with
             completed := x.counts.completed + BitVec.ofNat 32 (x.frames.filter gone).length } }

/-! ### Planning (R113, R115, R116, R117) -/

/-- R113: the stream chooses its boundary. -/
def chooseBoundary (thetaX : Word) (x : Stream) : Stream :=
  { x with nextRow := some { frame := x.frameNumber, j := 0, pos := boundaryAhead x.set.phase thetaX } }

/-- R117: the next row lies behind θ_x by a revolution or more. -/
def fellBehind (thetaX : Word) (r : NextRow) : Bool := decide (1048576 ≤ posDiff thetaX r.pos)

/-- R117: resynchronisation. -/
def resync (thetaX : Word) (r : NextRow) (x : Stream) : Stream :=
  let x := if r.j = 0 then x else missRows r.frame (rowsPerFrame x.set.pitch - r.j) x
  chooseBoundary thetaX { x with state := .armed, counts := { x.counts with resyncs := x.counts.resyncs + 1 } }

/-- What planning takes from the compute event: t_is, T in ns, θ_x and v_c (R116). -/
structure PlanInput where
  issue : Int
  period : Int
  thetaX : Word
  v : Int

/-- R116: the trigger time of a row at `pos`. -/
def triggerTime (p : PlanInput) (x : Stream) (pos : Word) : Int :=
  let d := posDiff pos p.thetaX
  let natural := if 0 < d then p.issue + d * p.period / p.v else p.issue
  match x.lastTrigger with
  | none => natural
  | some t => max natural (t + 8 * (x.set.minPeriod : Int))

/-- R115 and R116: one row is planned or dropped, and the next row advances (log entry 24). DESIGN CHOICE (log entry 63): an
ARMED stream becomes CAPTURING when a trigger of it is planned (R111), so a first row that is dropped leaves it ARMED, where
R115 speaks of its first row. -/
def planRow (p : PlanInput) (r : NextRow) (x : Stream) : Stream :=
  let t := triggerTime p x r.pos
  let x := { x with nextRow := some (rowAfter x.set.pitch r),
                    frameNumber := if r.j = 0 then x.frameNumber + 1 else x.frameNumber }
  if p.issue + p.period < t ∨ Config.planSize ≤ x.plan.length then
    missRows r.frame 1 { x with counts := { x.counts with missedRows := x.counts.missedRows + 1 } }
  else
    { x with state := .capturing, plan := x.plan ++ [{ frame := r.frame, j := r.j, pos := r.pos, time := t }],
             lastTrigger := some t }

/-- R115: rows are planned in order up to E; each row advances the next row by at least one step, so `fuel` steps suffice. -/
def planRows (p : PlanInput) : Nat → Stream → Stream
  | 0, x => x
  | fuel + 1, x =>
    match x.nextRow with
    | none => x
    | some r =>
      if posDiff r.pos (p.thetaX + word p.v) ≤ 0 then planRows p fuel (planRow p r x) else x

/-- R115: the planning of one stream at a compute event that forms a gear input; `restarted` by R19. -/
def planStream (p : PlanInput) (restarted : Bool) (x : Stream) : Stream :=
  if x.state = .idle then x
  else
    let x := match x.nextRow with
      | none => chooseBoundary p.thetaX x
      | some r => if restarted || fellBehind p.thetaX r then resync p.thetaX r x else x
    let x := if 0 < p.v then
        match x.nextRow with
        | none => x
        | some r => planRows p ((posDiff (p.thetaX + word p.v) r.pos).toNat + 1) x
      else x
    settle x

/-- R115 for both streams. -/
def planTriggers (v : Int) (s : State) : State :=
  let p : PlanInput :=
    { issue := s.ct.start + 1000 * (s.ct.pIs : Int), period := (Period.ns s.ct.period : Int), thetaX := s.gu.thetaX, v := v }
  { s with cu := mapV (fun _ x => planStream p s.gu.restarted x) s.cu }

/-! ### Firing (R118, R119) -/

/-- R118: the head trigger's time has come at `now`. -/
def fire (now : Nat) (t : Trigger) (x : Stream) : Stream :=
  let x := { x with plan := x.plan.drop 1 }
  if Config.outstandingSize ≤ x.outstanding.length then
    settle (missRows t.frame 1 { x with counts := { x.counts with overruns := x.counts.overruns + 1 } })
  else
    { x with outstanding := x.outstanding ++ [{ t with time := (now : Int) }], trigHigh := true
             trigFall := (now : Int) + min (4 * (x.set.minPeriod : Int)) 1000
             counts := { x.counts with fired := x.counts.fired + 1 } }

/-- TRIGGER_FIRE (R118). -/
def execTriggerFire (u : Fin 2) (now : Time) (s : State) : Outcome :=
  let s := advance now s
  .next <|
    match s.cu[u].plan with
    | [] => s
    | t :: _ => if t.time ≤ (nowOf s : Int) then modStream u (fire (nowOf s) t) s else s

/-- TRIGGER_PULSE_END (R118). -/
def execTriggerPulseEnd (u : Fin 2) (now : Time) (s : State) : Outcome :=
  let s := advance now s
  .next (modStream u (fun x => if x.trigFall ≤ (nowOf s : Int) then { x with trigHigh := false } else x) s)

/-- ROW_TIMEOUT (R119). -/
def execRowTimeout (u : Fin 2) (now : Time) (s : State) : Outcome :=
  let s := advance now s
  .next <|
    match s.cu[u].outstanding with
    | [] => s
    | t :: rest =>
      if t.time + 1000 * (s.cu[u].set.rowTimeout : Int) ≤ (nowOf s : Int) then
        modStream u (fun x => settle (missRows t.frame 1
          { x with outstanding := rest, counts := { x.counts with timeouts := x.counts.timeouts + 1 } })) s
      else s

/-! ### The camera FIFO and fill targets (R121 to R123, R137) -/

/-- Where byte `col` of row `j` goes in a buffer: beyond the capacity, beyond the stride, or an address (R137). -/
inductive Place3 | beyondRows | beyondStride | at (a : Addr)
deriving DecidableEq, Repr

/-- R137. -/
def placeOf (b : Buffer) (j col : Nat) : Place3 :=
  if b.capacity ≤ j then .beyondRows
  else if b.stride ≤ col then .beyondStride
  else .at (b.address + BitVec.ofNat 64 (j * b.stride + col))

/-- Outside the buffer. -/
def Place3.outside : Place3 → Bool
  | .beyondRows | .beyondStride => true
  | .at _ => false

/-- The flags with CLIPPED. -/
def clip (f : FrameFlags) : FrameFlags := { f with clipped := true }

/-- The bytes of a waiting frame take their addresses; those outside the buffer go (R121, R137). -/
def addressBytes (unit id : Nat) (b : Buffer) (q : List FifoByte) : List FifoByte :=
  q.filterMap fun x =>
    if x.unit = unit ∧ x.frame = id then
      match placeOf b x.row x.col with
      | .at a => some { x with addr := some a }
      | .beyondRows | .beyondStride => none
    else some x

/-- Some byte of a waiting frame lies outside the buffer. -/
def bytesClipped (unit id : Nat) (b : Buffer) (q : List FifoByte) : Bool :=
  q.any fun x => decide (x.unit = unit ∧ x.frame = id) && (placeOf b x.row x.col).outside

/-- The bytes of a frame are dropped. -/
def dropBytes (unit id : Nat) (q : List FifoByte) : List FifoByte :=
  q.filter fun x => decide (¬ (x.unit = unit ∧ x.frame = id))

/-- How a row that has ended is resolved once the target is known (R121, R122). -/
def resolveEnded (target : Target) (buffer : Option Buffer) (j id : Nat) (x : Stream) : Stream :=
  match target, buffer with
  | .waiting, _ => modFrame id (fun f => { f with waitingRows := f.waitingRows ++ [j] }) x
  | .buffer _, some b =>
    if b.capacity ≤ j then
      { modFrame id (fun f => { f with flags := clip f.flags }) x with
        counts := { x.counts with clippedRows := x.counts.clippedRows + 1 } }
    else modFrame id (fun f => { f with stored := f.stored + 1 }) x
  | .buffer _, none | .skip, _ => { x with counts := { x.counts with discarded := x.counts.discarded + 1 } }

/-- R121: the PM's answer reaches frame `f` of the stream. -/
def answerFrame (u : Fin 2) (f : CapFrame) (t : Target) (s : State) : State :=
  let b := match t with
    | .buffer i => bufferAt s (capturePool u) i
    | .waiting | .skip => none
  modStream u (fun x =>
    let x := match b with
      | some y =>
        { modFrame f.id (fun g => if bytesClipped u.val f.id y x.fifo then { g with flags := clip g.flags } else g) x with
          fifo := addressBytes u.val f.id y x.fifo }
      | none => { x with fifo := dropBytes u.val f.id x.fifo }
    let x := modFrame f.id (fun g => { g with target := t, waitingRows := [] }) x
    settle (f.waitingRows.foldl (fun x j => resolveEnded t b j f.id x) x)) s

/-- R121: the answer of a choice reaches the frame whose hold reads were outstanding. -/
def takeTarget (u : Fin 2) (t : Target) (s : State) : State :=
  match s.cu[u].frames.find? fun f => decide (f.target = .waiting) with
  | none => s
  | some f => answerFrame u f t s

/-- R121: a matched row begins a new frame. -/
def beginFrame (u : Fin 2) (t : Trigger) (s : State) : State :=
  let x := s.cu[u]
  let rows := rowsPerFrame x.set.pitch
  let missed := ((x.ahead.find? fun a => decide (a.1 = t.frame)).map (·.2)).getD 0
  let boundary := t.pos - BitVec.ofNat 32 (t.j * x.set.pitch)
  let frame := CapFrame.miss missed { id := x.nextId, number := t.frame, boundary := boundary, rows := rows, resolved := 0 }
  let s := modStream u (fun x =>
    settle { x with frames := x.frames.map CapFrame.missRest ++ [frame], nextId := x.nextId + 1, ahead := x.ahead.filter fun a => newer a.1 t.frame }) s
  let (s, answer) := requestTarget (capturePool u)
    { repeatNo := (boundary >>> 20).toNat, width := storedWidth x.set, firstPos := boundary, sequence := none } s
  match answer, s.cu[u].frames.getLast? with
  | some target, some f => answerFrame u f target s
  | _, _ => s

/-- The frame in progress has the number `n` (R121). -/
def inProgress (x : Stream) (n : Word) : Bool := x.frames.getLast?.any fun f => decide (f.number = n)

/-- R120: a matched row. -/
def matchRow (u : Fin 2) (t : Trigger) (s : State) : State :=
  let s := modStream u (fun x => { x with outstanding := x.outstanding.drop 1 }) s
  let s := if inProgress s.cu[u] t.frame then s else beginFrame u t s
  modStream u (fun x =>
    { x with row := (x.frames.find? fun f => decide (f.number = t.frame)).map fun f => { frame := f.id, j := t.j } }) s

/-- ROW_BEGIN (R120). -/
def execRowBegin (u : Fin 2) (s : State) : Outcome :=
  .next <|
    let x := s.cu[u]
    if x.state = .idle ∨ x.row.isSome then s
    else
      match x.outstanding with
      | [] => modStream u (fun x => { x with counts := { x.counts with spurious := x.counts.spurious + 1 } }) s
      | t :: _ => matchRow u t s

/-- R123: a stored byte finds the FIFO full. -/
def fifoOverrun (r : RowIn) (x : Stream) : Stream :=
  { modFrame r.frame (fun f => { f with flags := { f.flags with overrun := true } }) x with
    row := some { r with overrun := true }
    counts := { x.counts with fifoOverruns := x.counts.fifoOverruns + 1 } }

/-- R122 and R123: one stored byte of the row in reception; `buffer` is the frame's buffer where it has one. DESIGN CHOICE (log
entry 74): a byte beyond the stride that also meets a full FIFO flags CLIPPED alone once the buffer is known, and OVERRUN alone
while the fill target is awaited; pixels after an overrun flag nothing more. -/
def storeByte (u : Fin 2) (buffer : Option Buffer) (b : Byte) (r : RowIn) (x : Stream) : Stream :=
  let next := { r with storedPixels := r.storedPixels + 1 }
  let put := fun (a : Option Addr) =>
    if Config.cameraFifoSize ≤ x.fifo.length then fifoOverrun r x
    else
      { x with row := some next,
               fifo := x.fifo ++ [{ unit := u.val, frame := r.frame, row := r.j, col := r.storedPixels, addr := a, byte := b }] }
  match frameTarget x r.frame, buffer with
  | .waiting, _ => put none
  | .buffer _, some y =>
    match placeOf y r.j r.storedPixels with
    | .at a => put (some a)
    | .beyondStride => { modFrame r.frame (fun f => { f with flags := clip f.flags }) x with row := some next }
    | .beyondRows => { x with row := some next }
  | .buffer _, none | .skip, _ => { x with row := some next }

/-- The buffer of the frame of the row in reception. -/
def rowBuffer (u : Fin 2) (s : State) (r : RowIn) : Option Buffer :=
  match frameTarget s.cu[u] r.frame with
  | .buffer b => bufferAt s (capturePool u) b
  | .waiting | .skip => none

/-- R122: pixel `r.received` of a matched row, in a stream record. -/
def takePixel (u : Fin 2) (buffer : Option Buffer) (pixel : Byte) (r : RowIn) (x : Stream) : Stream :=
  if r.received < x.set.rowPixels then
    let i := r.received
    let r := { r with received := r.received + 1, sum := r.sum + pixel.toNat }
    if decide (x.set.decimation = 1 ∨ i % 2 = 0) && !r.overrun then storeByte u buffer pixel r x
    else { x with row := some r }
  else if r.long then x
  else
    { x with row := some { r with long := true }, counts := { x.counts with longRows := x.counts.longRows + 1 } }

/-- CAMERA_PIXEL (R122). -/
def execCameraPixel (u : Fin 2) (pixel : Byte) (s : State) : Outcome :=
  .next <|
    match s.cu[u].row with
    | none => s
    | some r => modStream u (takePixel u (rowBuffer u s r) pixel r) s

/-- R122: zero bytes up to the stored width; a full FIFO ends them (log entry 13). -/
def padRow (u : Fin 2) (buffer : Option Buffer) : Nat → Stream → Stream
  | 0, x => x
  | n + 1, x =>
    match x.row with
    | none => x
    | some r =>
      if r.overrun || decide (storedWidth x.set ≤ r.storedPixels) then x
      else padRow u buffer n (storeByte u buffer 0 r x)

/-- R122: the row in reception ends and is resolved. -/
def endRow (u : Fin 2) (buffer : Option Buffer) (r : RowIn) (x : Stream) : Stream :=
  let x := if r.received < x.set.rowPixels then
      padRow u buffer (storedWidth x.set)
        { modFrame r.frame (fun f => { f with flags := { f.flags with shortRow := true } }) x with
          counts := { x.counts with shortRows := x.counts.shortRows + 1 } }
    else x
  let x := resolveEnded (frameTarget x r.frame) buffer r.j r.frame x
  settle { modFrame r.frame (fun f => { f with resolved := min f.rows (f.resolved + 1) }) x with
    row := none }

/-! ### Web break (R125, R126) -/

/-- R125: the run counts at the end of a row with a mean. -/
def webRow (mean : Nat) (x : Stream) : Stream :=
  let x := { x with lastMean := mean }
  if mean < x.set.threshold then { x with dark := satInc x.set.webRows x.dark, bright := 0 }
  else { x with bright := satInc x.set.webRows x.bright, dark := 0 }

/-- R125, R126: a run that has reached K_w changes the web state, and the condition follows. -/
def webChange (u : Fin 2) (s : State) : State :=
  let x := s.cu[u]
  if !x.broken && decide (x.set.webRows ≤ x.dark) then
    let s := modStream u (fun x => { x with broken := true }) s
    match x.set.webClass with
    | none => s
    | some cls => reportPresent .web u.val cls s
  else if x.broken && decide (x.set.webRows ≤ x.bright) then
    let s := modStream u (fun x => { x with broken := false }) s
    if (findCond s .web u.val).isSome then reportGone .web u.val s else s
  else s

/-- WEB_STATE_CHANGE (R125; log entry 16). -/
def execWebStateChange (u : Fin 2) (s : State) : Outcome := .next (webChange u s)

/-- ROW_END (R122, R125). -/
def execRowEnd (u : Fin 2) (s : State) : Outcome :=
  .next <|
    match s.cu[u].row with
    | none => s
    | some r =>
      let s := modStream u (endRow u (rowBuffer u s r) r) s
      if r.received = 0 then s else webChange u (modStream u (webRow (r.sum / r.received)) s)

/-! ### Completion (R124, R138, R139) -/

/-- The frame that the FILLING buffer of the pool holds, where it can complete: every row resolved, no byte waiting, and a read
that reports its writes granted behind them (R124, R186). -/
def completable (s : State) (u : Fin 2) : Option CapFrame :=
  let x := s.cu[u]
  match s.pm.pools[capturePool u].filling with
  | none => none
  | some b =>
    (x.frames.find? fun f => decide (f.target = .buffer b)).filter fun f =>
      f.whole && !unasked u.val f.id x.flight && x.fifo.all (fun y => decide (y.frame ≠ f.id))

/-- R124: the read that reports the frame's writes has returned (log entry 41), and the CU hands the complete frame to the PM. -/
def completeCapture (u : Fin 2) (f : CapFrame) (s : State) : State :=
  let s := modStream u (fun x =>
    { x with frames := x.frames.filter fun g => decide (g.id ≠ f.id)
             flight := remainingWrites u.val f.id x.flight
             counts := { x.counts with completed := x.counts.completed + 1 } })
    (land (reportedWrites u.val f.id s.cu[u].flight) s)
  completeFrame (capturePool u) f.stored f.flags f.boundary (f.boundary >>> 20).toNat s

/-- R138, and R139 where the pending target's own frame has nothing left to write. -/
def completeCaptures (u : Fin 2) : Nat → State → State
  | 0, s => s
  | n + 1, s =>
    match completable s u with
    | none => s
    | some f => completeCaptures u n (completeCapture u f s)

/-! ### Commands (R112, R113, R127) -/

/-- A web class byte: 0 is disabled (R188). -/
def webClassOf (b : Byte) : Option (Option TripClass) := if b = 0 then some none else (classOf b).map some

/-- R112. -/
def ownSetStream (p : SetStreamP) (s : State) : State × Reply :=
  match finOf 2 p.stream.toNat, webClassOf p.webClass with
  | some u, some cls =>
    if ¬ inRange 64 4096 p.rowPixels.toNat ∨ p.rowPixels.toNat % 8 ≠ 0 ∨ p.pitch.toNat < 16 ∨ 1048576 ≤ p.phase.toNat
        ∨ ¬ inRange 1 2 p.decimation.toNat ∨ p.minPeriod = 0 ∨ ¬ inRange 1 1000 p.rowTimeout.toNat
        ∨ ¬ inRange 1 4096 p.webRows.toNat then refuse s .badParam
    else if s.cu[u].state ≠ .idle then refuse s .busy
    else
      let set : StreamSet :=
        { rowPixels := p.rowPixels.toNat, pitch := p.pitch.toNat, phase := p.phase.toNat, decimation := p.decimation.toNat,
          minPeriod := p.minPeriod.toNat, rowTimeout := p.rowTimeout.toNat, threshold := p.threshold.toNat,
          webRows := p.webRows.toNat, webClass := cls }
      done (modStream u (fun x => { x with configured := true, set := set, dark := 0, bright := 0 }) s)
  | _, _ => refuse s .badParam

/-- R113. -/
def ownStartStream (stream : Byte) (s : State) : State × Reply :=
  match finOf 2 stream.toNat with
  | none => refuse s .badParam
  | some u =>
    let x := s.cu[u]
    if x.state ≠ .idle ∨ x.configured = false ∨ s.pm.pools[capturePool u].configured = false then refuse s .wrongState
    else
      done (modStream u (fun x => { x with state := .armed, nextRow := none, lastTrigger := none, broken := false, dark := 0,
                                           bright := 0 }) s)

/-- R127 on the stream record. DESIGN CHOICE (log entries 72 and 73): a frame in progress whose fill target is still awaited is
flagged TRUNCATED too, and the row in reception is resolved as missing, in no count of rows. -/
def stopStream (x : Stream) : Stream :=
  let last := (x.frames.getLast?.map (·.id)).getD 0
  let frames := x.frames.map fun f =>
    let f := f.missRest
    if f.id = last then { f with flags := { f.flags with truncated := true } } else f
  settle { x with state := .idle, nextRow := none, lastTrigger := none, plan := [], outstanding := [], row := none,
                  frames := frames, ahead := [], broken := false, dark := 0, bright := 0, trigHigh := false }

/-- R127. -/
def ownStopStream (stream : Byte) (s : State) : State × Reply :=
  match finOf 2 stream.toNat with
  | none => refuse s .badParam
  | some u =>
    if s.cu[u].state = .idle then refuse s .wrongState
    else
      let s := modStream u stopStream s
      done (if (findCond s .web u.val).isSome then reportGone .web u.val s else s)

def execSetStream (cell : Fin 16) (tag : Half) (p : SetStreamP) (s : State) : Outcome :=
  .next (takeAs cell tag (.setStream p) (ownSetStream p) s)

def execStartStream (cell : Fin 16) (tag : Half) (stream : Byte) (s : State) : Outcome :=
  .next (takeAs cell tag (.startStream stream) (ownStartStream stream) s)

def execStopStream (cell : Fin 16) (tag : Half) (stream : Byte) (s : State) : Outcome :=
  .next (takeAs cell tag (.stopStream stream) (ownStopStream stream) s)

end Sys2Proof.Machine
end

