-- ==== Sys2Proof/Machine/Views.lean ====
section
/-! DEFINITION. The View Engine (chapter 8): outgoing views, their reduction and segments, the budget, and the receive
bindings. -/

namespace Sys2Proof.Machine

/-! ### Segments of a view frame (R150, R151) -/

/-- Where a segment begins in its view frame. -/
def segmentStart (x : ViewSet) (i : Nat) : Nat := i * x.segSize

/-- How many pixel bytes a segment carries. -/
def segmentBytes (x : ViewSet) (f : ViewFrame) (i : Nat) : Nat := min x.segSize (f.w * f.h - segmentStart x i)

/-- R151: the segments of a view frame. -/
def segmentCount (x : ViewSet) (w h : Nat) : Nat := ceilDiv (w * h) x.segSize

/-- Reads of `len` bytes from an address, none above 256 bytes or across a 256-byte boundary (R186). -/
def chunkReads : Nat → Nat → Nat → List (Nat × Nat)
  | 0, _, _ => []
  | fuel + 1, a, len =>
    if len = 0 then []
    else
      let n := min len (Config.transactionSize - a % Config.transactionSize)
      (a, n) :: chunkReads fuel (a + n) (len - n)

/-- The source rows of the cells of output pixels `x1` to `x2` of output row `y`, as reads (log entry 14). -/
def cellReads (x : ViewSet) (b : Buffer) (y x1 x2 : Nat) : List (Nat × Nat) :=
  (List.range x.dy).flatMap fun i =>
    let n := (x2 + 1 - x1) * x.dx
    chunkReads n (b.address.toNat + (x.y0 + y * x.dy + i) * b.stride + x.x0 + x1 * x.dx) n

/-- R151: the source reads of segment `i` of a view frame. -/
def segmentReads (x : ViewSet) (f : ViewFrame) (b : Buffer) (i : Nat) : List (Nat × Nat) :=
  let first := segmentStart x i
  let last := first + segmentBytes x f i - 1
  (List.range (last / f.w + 1 - first / f.w)).flatMap fun k =>
    let y := first / f.w + k
    cellReads x b y (if k = 0 then first % f.w else 0) (if y = last / f.w then last % f.w else f.w - 1)

/-- R150: one output pixel from its cell, row by row. -/
def reduceCell (mean : Bool) (n : Nat) (cell : List Byte) : Byte :=
  if mean then byte (((cell.map (·.toNat)).sum + n / 2) / n) else cell.getD 0 0

/-- R151: the pixel bytes of a prepared segment from the cells read; a pixel whose cell met a bus error is 0. -/
def formSegment (x : ViewSet) (zeroed : List Nat) (size : Nat) (cells : List (List Byte)) : List Byte :=
  (List.range size).map fun k =>
    if zeroed.contains k then 0 else reduceCell x.mean (x.dx * x.dy) (cells.getD k [])

/-- The pool a view reads. -/
def viewPool (x : ViewSet) : Fin 6 := capturePool x.pool

/-- R151: preparation of the next segment begins. -/
def prepare (v : Fin 4) (s : State) : State :=
  let x := s.ve.views[v]
  match x.current with
  | none => s
  | some f =>
    match bufferAt s (viewPool x.set) f.buffer with
    | none => s
    | some b => modView v (fun x => { x with prepared := some { toRead := segmentReads x.set f b f.next } }) s

/-! ### View frame starts (R149) -/

/-- Views start frames and offer segments in these node states (R149, R153). -/
def viewsRun (n : NodeState) : Bool :=
  match n with
  | .joining | .online | .holdover | .isolated => true
  | .config | .passive => false

/-- R149: the crop clipped to a frame of the width and rows given. -/
def clippedSize (x : ViewSet) (width rows : Nat) : Nat × Nat :=
  ((min (x.x0 + x.w) width - x.x0) / x.dx, (min (x.y0 + x.h) rows - x.y0) / x.dy)

/-- R149: a WAITING view at a compute event. -/
def viewFrameStart (v : Fin 4) (s : State) : State :=
  let x := s.ve.views[v]
  if x.state ≠ .waiting then s
  else
    let p := viewPool x.set
    match selectBuffer s p false x.last with
    | none => s
    | some b =>
      match bufferAt s p b with
      | none => s
      | some y =>
        let s := takeBuffer p b s
        let (w, h) := clippedSize x.set y.width y.rows
        if w = 0 ∨ h = 0 then
          releaseBuffer p b (modView v (fun x => { x with last := some y.sequence, empty := x.empty + 1 }) s)
        else
          prepare v (modView v (fun x =>
            { x with state := .sending
                     current := some { buffer := b, sequence := y.sequence, repeatNo := y.repeatNo, w := w, h := h,
                                       count := segmentCount x.set w h, next := 0 } }) s)

/-- R149 for every view. DESIGN CHOICE (log entry 89): the views select and take their buffers in the order 0 to 3. -/
def startViewFrames (s : State) : State :=
  if viewsRun s.ct.nodeState then (indices 4).foldl (fun s v => viewFrameStart v s) s else s

/-! ### The offer (R152, R153) -/

/-- The views in index order from the turn on. -/
def turnOrder (turn : Fin 4) : List (Fin 4) := [turn, turn + 1, turn + 2, turn + 3]

/-- The pixel bytes of a view's ready segment, where it is SENDING and has one. -/
def readySegment (x : View) : Option (List Byte) :=
  if x.state = .sending then x.prepared.bind (·.ready) else none

/-- R153: the first SENDING view from the turn whose prepared segment is ready. -/
def firstReady (s : State) : Option (Fin 4) :=
  (turnOrder s.ve.turn).find? fun v => (readySegment s.ve.views[v]).isSome

/-- R153: a ready segment larger than the budget ends the cycle's offers. -/
def checkBudget (s : State) : State :=
  match (firstReady s).bind fun v => readySegment s.ve.views[v] with
  | none => s
  | some bs => if s.ve.budget < bs.length then { s with ve := { s.ve with exhausted := true } } else s

/-- R152: the start of the quiet window of the current cycle. -/
def quietStart (s : State) : Int := s.ct.start + (Period.ns s.ct.period : Int) - 1000 * (s.ve.quiet : Int)

/-- R153: the view whose segment the VE offers. -/
def offeredView (s : State) : Option (Fin 4) :=
  if viewsRun s.ct.nodeState && !s.ve.withdrawn && !s.ve.exhausted && decide ((nowOf s : Int) < quietStart s) then
    (firstReady s).filter fun v => decide (((readySegment s.ve.views[v]).getD []).length ≤ s.ve.budget)
  else none

/-- R152 at a cycle start: pending values apply and the budget is set. -/
def resetBudget (s : State) : State :=
  let ve := match s.ve.pendingAllowance with
    | none => s.ve
    | some (a, q) => { s.ve with allowance := a, quiet := q, pendingAllowance := none }
  checkBudget { s with ve := { ve with budget := ve.allowance, withdrawn := false, exhausted := false } }

/-- QUIET_WINDOW_START (R152). -/
def execQuietWindowStart (now : Time) (s : State) : Outcome :=
  let s := advance now s
  .next (if quietStart s ≤ (nowOf s : Int) then { s with ve := { s.ve with withdrawn := true } } else s)

/-- R152: a beat that moves S moves the quiet window. -/
def moveQuietWindow (s : State) : State :=
  { s with ve := { s.ve with withdrawn := decide (quietStart s ≤ (nowOf s : Int)) } }

/-- SEGMENT_READY (R151): the bytes of each output pixel's cell, as the source reads brought them. -/
def execSegmentReady (view : Fin 4) (cells : List (List Byte)) (s : State) : Outcome :=
  .next <|
    let x := s.ve.views[view]
    match x.current, x.prepared with
    | some f, some p =>
      if p.toRead = [] ∧ p.ready = none then
        checkBudget (modView view (fun x =>
          { x with prepared := some { p with
              ready := some (formSegment x.set p.zeroed (segmentBytes x.set f f.next) cells) } }) s)
      else s
    | _, _ => s

/-- R151: the VIEW frame of a segment. -/
def segmentFrame (s : State) (v : Fin 4) (x : View) (f : ViewFrame) (bs : List Byte) : Frame :=
  mkFrame 0 (byte (own s).val) (byte x.set.dest)
    (.view { source := byte (own s).val, view := byte v.val, sequence := f.sequence, repeatNo := BitVec.ofNat 16 f.repeatNo,
             w := BitVec.ofNat 16 f.w, h := BitVec.ofNat 16 f.h, index := BitVec.ofNat 16 f.next,
             count := BitVec.ofNat 16 f.count, pixelBytes := BitVec.ofNat 16 bs.length, pixels := bs })

/-- R153: a segment is sent; after the last one the view releases its buffer. -/
def sendSegment (v : Fin 4) (f : ViewFrame) (size : Nat) (s : State) : State :=
  let p := viewPool s.ve.views[v].set
  let s := { s with ve := { s.ve with budget := s.ve.budget - size, turn := v + 1 } }
  if f.next + 1 = f.count then
    checkBudget (releaseBuffer p f.buffer (modView v (fun x =>
      { x with sent := x.sent + 1, framesSent := x.framesSent + 1, last := some f.sequence, state := .waiting
               current := none, prepared := none }) s))
  else
    checkBudget (prepare v (modView v (fun x =>
      { x with sent := x.sent + 1, current := some { f with next := f.next + 1 }, prepared := none }) s))

/-- R151: output pixel `k` of a segment has a byte of the read in its cell. -/
def cellTouches (x : ViewSet) (f : ViewFrame) (b : Buffer) (read : Nat × Nat) (k : Nat) : Bool :=
  let i := segmentStart x f.next + k
  (List.range x.dy).any fun r =>
    let a := b.address.toNat + (x.y0 + i / f.w * x.dy + r) * b.stride + x.x0 + i % f.w * x.dx
    decide (a < read.1 + read.2 ∧ read.1 < a + x.dx)

/-- R151: the output pixels of the prepared segment that read `i` of it makes 0. -/
def zeroedBy (v : Fin 4) (i : Nat) (s : State) : List Nat :=
  let x := s.ve.views[v]
  match x.current, x.prepared with
  | some f, some p =>
    match p.issued[i]?, bufferAt s (viewPool x.set) f.buffer with
    | some read, some b => (List.range (segmentBytes x.set f f.next)).filter (cellTouches x.set f b read)
    | _, _ => []
  | _, _ => []

/-- R151, R160: a source read ended in a bus error; it counts also where its segment has been given up. -/
def sourceReadError (v : Fin 4) (i : Nat) (s : State) : State :=
  modView v (fun x =>
    { x with readErrors := x.readErrors + 1
             prepared := x.prepared.map fun p => { p with zeroed := p.zeroed ++ zeroedBy v i s } }) s

/-! ### Receiving (R156 to R159) -/

/-- The last frame of a binding edited: the OPEN assembly's. -/
def modLast (f : RecvFrame → RecvFrame) (x : Binding) : Binding :=
  { x with frames := x.frames.modify (x.frames.length - 1) f }

/-- One frame of a binding edited. -/
def modRecv (id : Nat) (f : RecvFrame → RecvFrame) (x : Binding) : Binding :=
  { x with frames := x.frames.map fun y => if y.id = id then f y else y }

def markIncomplete (f : FrameFlags) : FrameFlags := { f with incomplete := true }

/-- R159: the OPEN assembly is closed; `whole` when by its last segment. -/
def closeAssembly (whole : Bool) (x : Binding) : Binding :=
  modLast (fun f => { f with closed := true, flags := if whole then f.flags else markIncomplete f.flags })
    { x with asm := .closed }

/-- R156: the offset of a segment in its frame. -/
def segmentOffset (g : Segment) : Int :=
  if g.index.toNat + 1 < g.count.toNat then (g.index.toNat * g.pixelBytes.toNat : Nat)
  else (g.w.toNat * g.h.toNat : Int) - g.pixelBytes.toNat

/-- R156: the header of a segment is invalid for a binding. -/
def invalidHeader (x : Binding) (g : Segment) : Bool :=
  let w := g.w.toNat
  let h := g.h.toNat
  let px := g.pixelBytes.toNat
  decide (w = 0 ∨ 4096 < w ∨ h = 0 ∨ 1048576 < w * h ∨ g.count = 0 ∨ g.count.toNat ≤ g.index.toNat ∨ px = 0 ∨ 512 < px
    ∨ ((w * h : Nat) : Int) < segmentOffset g + (px : Int) ∨ segmentOffset g < 0)
  || decide (x.asm ≠ .closed ∧ x.last = some g.sequence ∧ ¬ (x.w = w ∧ x.h = h ∧ x.count = g.count.toNat))

/-- R158: the bytes of an accepted segment go into the ring-in buffer, from byte `k` of the frame on. DESIGN CHOICE (log entry
74): a byte outside the buffer's rows or stride that also finds the ring-in buffer full flags CLIPPED alone, and OVERRUN alone
while the fill target is awaited. -/
def enterBytes (unit : Nat) (buffer : Option Buffer) (f : RecvFrame) : Nat → List Byte → List FifoByte → FrameFlags →
    List FifoByte × FrameFlags
  | _, [], q, fl => (q, fl)
  | k, b :: bs, q, fl =>
    let row := k / f.w
    let col := k % f.w
    let put := fun (a : Option Addr) =>
      if Config.ringInSize ≤ q.length then (q, { fl with overrun := true })
      else (q ++ [{ unit := unit, frame := f.id, row := row, col := col, addr := a, byte := b }], fl)
    let (q, fl) := match buffer with
      | none => put none
      | some y =>
        match placeOf y row col with
        | .at a => put (some a)
        | .beyondRows | .beyondStride => (q, clip fl)
    enterBytes unit buffer f (k + 1) bs q fl

/-- The buffer that a receive frame has been answered with. -/
def recvBuffer (s : State) (b : Fin 4) (f : RecvFrame) : Option Buffer :=
  match f.target with
  | .buffer i => bufferAt s (recvPool b) i
  | .waiting | .skip => none

/-- R158: a segment at or above the next expected index is accepted. DESIGN CHOICE (log entry 65): where an intact frame's
payload holds more or fewer bytes than its pixel-bytes field says, the bytes beyond are left out and missing ones are 0. -/
def acceptSegment (b : Fin 4) (g : Segment) (s : State) : State :=
  let x := s.ve.bindings[b]
  match x.frames.getLast? with
  | none => s
  | some f =>
    let i := g.index.toNat
    let missing := i - x.next
    let off := (segmentOffset g).toNat
    let flags := if missing = 0 then f.flags else { f.flags with gapped := true, incomplete := true }
    let (q, flags) := enterBytes b.val (recvBuffer s b f) f off (padTo g.pixelBytes.toNat g.pixels) s.ve.ringIn flags
    let s := { s with ve := { s.ve with ringIn := q } }
    modBinding b (fun x =>
      let x := modLast (fun f => { f with extent := off + g.pixelBytes.toNat, flags := flags })
        { x with next := i + 1, idle := 0, accepted := x.accepted + 1, gaps := x.gaps + BitVec.ofNat 32 missing }
      if i + 1 = g.count.toNat then closeAssembly true x else x) s

/-- R158 on the OPEN assembly. -/
def takeSegment (b : Fin 4) (g : Segment) (s : State) : State :=
  if g.index.toNat < s.ve.bindings[b].next then modBinding b (fun x => { x with duplicates := x.duplicates + 1 }) s
  else acceptSegment b g s

/-- R157: the PM's answer reaches receive frame `f`. -/
def answerRecv (b : Fin 4) (f : RecvFrame) (t : Target) (s : State) : State :=
  match t with
  | .waiting => s
  | .skip =>
    modBinding b (fun x => { x with frames := x.frames.filter fun g => decide (g.id ≠ f.id)
                                    asm := if f.closed then x.asm else .skipping })
      { s with ve := { s.ve with ringIn := dropBytes b.val f.id s.ve.ringIn } }
  | .buffer i =>
    match bufferAt s (recvPool b) i with
    | none => s
    | some y =>
      let clipped := bytesClipped b.val f.id y s.ve.ringIn
      modBinding b (modRecv f.id fun g => { g with target := t, flags := if clipped then clip g.flags else g.flags })
        { s with ve := { s.ve with ringIn := addressBytes b.val f.id y s.ve.ringIn } }

/-- R157: the answer of a choice reaches the frame whose hold reads were outstanding. -/
def takeRecvTarget (b : Fin 4) (t : Target) (s : State) : State :=
  match s.ve.bindings[b].frames.find? fun f => decide (f.target = .waiting) with
  | none => s
  | some f => answerRecv b f t s

/-- R157: the present assembly ends and a new one opens with the segment. -/
def openAssembly (b : Fin 4) (g : Segment) (s : State) : State :=
  let s := modBinding b (fun x =>
    let x := match x.asm with
      | .openA => { closeAssembly false x with supersessions := x.supersessions + 1 }
      | .skipping | .closed => x
    { x with asm := .openA, last := some g.sequence, w := g.w.toNat, h := g.h.toNat, count := g.count.toNat, next := 0,
             idle := 0, nextId := x.nextId + 1,
             frames := x.frames ++ [{ id := x.nextId, sequence := g.sequence, repeatNo := g.repeatNo.toNat,
                                      w := g.w.toNat }] }) s
  let (s, answer) := requestTarget (recvPool b)
    { repeatNo := g.repeatNo.toNat, width := g.w.toNat, firstPos := 0, sequence := some g.sequence } s
  let s := takeSegment b g s
  match answer, s.ve.bindings[b].frames.getLast? with
  | some t, some f => answerRecv b f t s
  | _, _ => s

/-- The binding of a segment (R156). -/
def bindingFor (s : State) (g : Segment) : Option (Fin 4) :=
  (indices 4).find? fun b =>
    s.ve.bindings[b].source.any fun x => decide (x.1.val = g.source.toNat ∧ x.2 = g.view.toNat)

/-- R156. -/
def deliverSegment (g : Segment) (s : State) : State :=
  match bindingFor s g with
  | none => { s with ve := { s.ve with unbound := s.ve.unbound + 1 } }
  | some b =>
    let x := s.ve.bindings[b]
    if invalidHeader x g then modBinding b (fun x => { x with invalid := x.invalid + 1 }) s
    else if x.last ≠ some g.sequence then openAssembly b g s
    else
      match x.asm with
      | .openA => takeSegment b g s
      | .skipping => modBinding b (fun x => { x with skipped := x.skipped + 1 }) s
      | .closed => modBinding b (fun x => { x with duplicates := x.duplicates + 1 }) s

/-- R159: an idle count that has reached the receive timeout closes the assembly. -/
def timeoutAssembly (b : Fin 4) (s : State) : State :=
  let x := s.ve.bindings[b]
  if x.asm = .openA ∧ x.timeout ≤ x.idle then
    modBinding b (fun x => { closeAssembly false x with timeouts := x.timeouts + 1 }) s
  else s

/-- RECEIVE_TIMEOUT (R159), for the binding of pool 2 + `b` (log entry 16). -/
def execReceiveTimeout (b : Fin 4) (s : State) : Outcome := .next (timeoutAssembly b s)

/-- R159 at a compute event. -/
def countIdle (s : State) : State :=
  (indices 4).foldl (fun s b =>
    timeoutAssembly b (modBinding b (fun x => if x.asm = .openA then { x with idle := x.idle + 1 } else x) s)) s

/-- The frame that the FILLING buffer of a receive pool holds, where it can complete (R159, R186). -/
def completableRecv (s : State) (b : Fin 4) : Option RecvFrame :=
  match s.pm.pools[recvPool b].filling with
  | none => none
  | some i =>
    (s.ve.bindings[b].frames.find? fun f => decide (f.target = .buffer i)).filter fun f =>
      f.closed && !unasked b.val f.id s.ve.flight && s.ve.ringIn.all (fun y => decide (¬ (y.unit = b.val ∧ y.frame = f.id)))

/-- R159: rows stored. -/
def recvRows (f : RecvFrame) (capacity : Nat) : Nat := min (ceilDiv f.extent f.w) capacity

/-- The return of the read behind a receive frame's last write reports the writes granted before it (R186; log entry 41). -/
def reportRecv (b : Fin 4) (f : RecvFrame) (s : State) : State :=
  let t := land (reportedWrites b.val f.id s.ve.flight) s
  { t with ve := { t.ve with flight := remainingWrites b.val f.id s.ve.flight } }

/-- R159: the VE hands a complete frame to the PM. -/
def completeRecv (b : Fin 4) (f : RecvFrame) (s : State) : State :=
  let s := reportRecv b f s
  let capacity := ((recvBuffer s b f).map (·.capacity)).getD 0
  completeFrame (recvPool b) (recvRows f capacity) f.flags 0 f.repeatNo
    (modBinding b (fun x => { x with frames := x.frames.filter fun g => decide (g.id ≠ f.id) }) s)

/-- R138, and R139 where the pending target's own frame has nothing left to write. -/
def completeRecvs (b : Fin 4) : Nat → State → State
  | 0, s => s
  | n + 1, s =>
    match completableRecv s b with
    | none => s
    | some f => completeRecvs b n (completeRecv b f s)

/-! ### Rows of both kinds of pool -/

/-- FILL_TARGET_CHOICE (R135): the hold bytes read. -/
def execFillTargetChoice (pool : Fin 6) (holds : List Byte) (s : State) : Outcome :=
  .next <|
    match s.pm.pools[pool].request with
    | none => s
    | some r =>
      if landed s (.hold pool) && !rewriting s then
        let (s, t) := answerRequest pool r holds s
        match streamOf pool, bindingOf pool with
        | some u, _ => takeTarget u t s
        | none, some b => takeRecvTarget b t s
        | none, none => s
      else s

/-- FRAME_COMPLETION (R138). -/
def execFrameCompletion (pool : Fin 6) (s : State) : Outcome :=
  .next <|
    match streamOf pool, bindingOf pool with
    | some u, _ => completeCaptures u s.cu[u].frames.length s
    | none, some b => completeRecvs b s.ve.bindings[b].frames.length s
    | none, none => s

/-! ### Commands (R147, R148, R152, R154, R155) -/

/-- R147: h shrunk so that a view frame holds at most 1 MiB. -/
def shrunkHeight (w h dx dy : Nat) : Nat :=
  let wOut := w / dx
  if 1048576 < wOut * (h / dy) then 1048576 / wOut * dy else h

/-- R147: a reduction factor. -/
def factorOk (b : Byte) : Bool := decide (b = 1 ∨ b = 2 ∨ b = 4 ∨ b = 8)

/-- R147. -/
def ownSetView (p : SetViewP) (s : State) : State × Reply :=
  match finOf 4 p.view.toNat, finOf 2 p.pool.toNat, boolOf p.mean with
  | some v, some pool, some mean =>
    if destOf p.dest = false ∨ factorOk p.dx = false ∨ factorOk p.dy = false ∨ 4095 < p.x0.toNat
        ∨ ¬ inRange 1 4096 p.w.toNat ∨ p.h = 0 ∨ ¬ (p.segSize = 128 ∨ p.segSize = 256 ∨ p.segSize = 512) then
      refuse s .badParam
    else if s.ve.views[v].state ≠ .stopped then refuse s .busy
    else
      let dx := p.dx.toNat
      let dy := p.dy.toNat
      let h := shrunkHeight p.w.toNat p.h.toNat dx dy
      let set : ViewSet :=
        { pool := pool, dest := p.dest.toNat, x0 := p.x0.toNat, y0 := p.y0.toNat, w := p.w.toNat, h := h, dx := dx, dy := dy,
          mean := mean, segSize := p.segSize.toNat }
      doneClamped (modView v (fun x => { x with configured := true, set := set, last := none }) s)
        (decide (h ≠ p.h.toNat)) (leBytes 2 h ++ leBytes 4 (p.w.toNat / dx) ++ leBytes 4 (h / dy))
  | _, _, _ => refuse s .badParam

/-- R148. -/
def ownStartView (view : Byte) (s : State) : State × Reply :=
  match finOf 4 view.toNat with
  | none => refuse s .badParam
  | some v =>
    let x := s.ve.views[v]
    if x.state ≠ .stopped ∨ x.configured = false then refuse s .wrongState
    else done (modView v (fun x => { x with state := .waiting }) s)

/-- R154. -/
def ownStopView (view : Byte) (s : State) : State × Reply :=
  match finOf 4 view.toNat with
  | none => refuse s .badParam
  | some v =>
    let x := s.ve.views[v]
    match x.state with
    | .stopped => refuse s .wrongState
    | .waiting => done (modView v (fun x => { x with state := .stopped }) s)
    | .sending =>
      let s := modView v (fun x => { x with state := .stopped, current := none, prepared := none,
                                            truncations := x.truncations + 1 }) s
      done (checkBudget (match x.current with
        | none => s
        | some f => releaseBuffer (viewPool x.set) f.buffer s))

/-- R152. -/
def ownSetViewAllowance (p : SetViewAllowanceP) (s : State) : State × Reply :=
  if 16384 < p.allowance.toNat ∨ 100 < p.quiet.toNat then refuse s .badParam
  else done { s with ve := { s.ve with pendingAllowance := some (p.allowance.toNat, p.quiet.toNat) } }

/-- R155: another pool is bound to the same source node and view. -/
def boundElsewhere (s : State) (b : Fin 4) (source : NodeAddr) (view : Nat) : Bool :=
  (indices 4).any fun c => decide (c ≠ b ∧ s.ve.bindings[c].source = some (source, view))

/-- R155. DESIGN CHOICE (log entry 64): an unbind makes a SKIPPING assembly CLOSED as well, where R155 names an OPEN one. -/
def ownSetReceive (p : SetReceiveP) (s : State) : State × Reply :=
  match (finOf 6 p.pool.toNat).bind bindingOf, boolOf p.bind with
  | some b, some false =>
    let x := s.ve.bindings[b]
    if x.source.isNone then done s
    else
      done (modBinding b (fun x =>
        { (match x.asm with
            | .openA => closeAssembly false x
            | .skipping | .closed => { x with asm := .closed }) with source := none }) s)
  | some b, some true =>
    match finOf 32 p.source.toNat with
    | none => refuse s .badParam
    | some source =>
      if 3 < p.view.toNat ∨ ¬ inRange 1 4096 p.timeout.toNat then refuse s .badParam
      else if s.pm.pools[recvPool b].configured = false then refuse s .wrongState
      else if poolInUse s (recvPool b) || boundElsewhere s b source p.view.toNat then refuse s .busy
      else
        done (modBinding b (fun x => { x with source := some (source, p.view.toNat), timeout := p.timeout.toNat,
                                              last := none, asm := .closed }) s)
  | _, _ => refuse s .badParam

def execSetView (cell : Fin 16) (tag : Half) (p : SetViewP) (s : State) : Outcome :=
  .next (takeAs cell tag (.setView p) (ownSetView p) s)

def execStartView (cell : Fin 16) (tag : Half) (view : Byte) (s : State) : Outcome :=
  .next (takeAs cell tag (.startView view) (ownStartView view) s)

def execStopView (cell : Fin 16) (tag : Half) (view : Byte) (s : State) : Outcome :=
  .next (takeAs cell tag (.stopView view) (ownStopView view) s)

def execSetViewAllowance (cell : Fin 16) (tag : Half) (p : SetViewAllowanceP) (s : State) : Outcome :=
  .next (takeAs cell tag (.setViewAllowance p) (ownSetViewAllowance p) s)

def execSetReceive (cell : Fin 16) (tag : Half) (p : SetReceiveP) (s : State) : Outcome :=
  .next (takeAs cell tag (.setReceive p) (ownSetReceive p) s)

end Sys2Proof.Machine
end

