-- ==== Sys2Proof/Machine/StatusPage.lean ====
section
/-! DEFINITION. The status page (11.5, R189): one function per region, in page order. Bytes that the table leaves over are 0
(R188). -/

namespace Sys2Proof.Machine

def SectionState.code : SectionState → Nat
  | .unset => 0 | .held => 1 | .jogging => 2 | .engaging => 3 | .engaged => 4 | .releasing => 5

def ChannelState.code : ChannelState → Nat
  | .free => 0 | .tracking => 1 | .active => 2 | .faulted => 3

def StreamState.code : StreamState → Nat
  | .idle => 0 | .armed => 1 | .capturing => 2

def ViewState.code : ViewState → Nat
  | .stopped => 0 | .waiting => 1 | .sending => 2

def AsmState.code : AsmState → Nat
  | .closed => 0 | .openA => 1 | .skipping => 2

def LoadState.code : LoadState → Nat
  | .idle => 0 | .reading => 1 | .complete => 2

/-- One bit of a byte. -/
def flagBit (i : Nat) (b : Bool) : Nat := if b then 2 ^ i else 0

/-- A count shown in one byte, saturating. -/
def satByte (n : Nat) : Byte := byte (min n 255)

/-- A buffer index, or none (R188). -/
def bufferByte (b : Option Nat) : Byte := (b.map byte).getD 0xFF

/-- 0x000: the page, the cycle and the gear input. -/
def pageCycle (s : State) (count : Word) : List Byte :=
  padTo 44 (le32 count ++ le32 s.ct.n ++ [byte (count.toNat % 4), byte s.ct.nodeState.code, boolByte (cutOutput s),
      byte (Period.code s.ct.period)] ++ leBytes 2 s.ct.pIn ++ leBytes 2 s.ct.pCo ++ leBytes 2 s.ct.pIs
    ++ leSigned 4 s.ct.correction ++ [byte s.ct.missed, byte s.ct.lead, byte s.ct.limit]
    ++ le32 s.gu.lastTheta ++ leSigned 4 s.gu.lastV ++ le32 s.gu.thetaX ++ leSigned 4 s.gu.delta)

/-- 0x02C: the line master's fields, 0 on other nodes, and the line limits, which every node reports (R11); for the line trip level
log entry 88. -/
def pageLine (s : State) : List Byte :=
  let master := le32 s.ag.theta ++ leSigned 4 s.ag.v ++ leSigned 4 s.ag.demand ++ [byte s.ag.lineState.code,
    byte s.tc.lineTerm.code, boolByte s.ri.healFlag, satByte s.ri.healRun] ++ le32 s.ri.copyCycle
  padTo 40 ((if isMaster s then master else List.replicate 20 0) ++ leBytes 4 s.ag.vMax ++ leBytes 4 s.ag.vRev
    ++ leBytes 2 s.ag.aUp ++ leBytes 2 s.ag.aDown ++ leBytes 2 s.ag.aStop)

/-- One address of the present set. -/
def pagePresentOne (s : State) (a : NodeAddr) : List Byte :=
  let x := s.ri.copy[a]
  let n := s.ri.present[a]
  [byte (flagBit 0 n.isSome + flagBit 1 x.stamped + 4 * x.nodeState.code + 32 * x.mode.code), byte (n.getD 0)]

/-- 0x054: the present set. -/
def pagePresent (s : State) : List Byte := padTo 64 ((indices 32).flatMap (pagePresentOne s))

/-- One section record. -/
def pageSection (x : Sect) : List Byte :=
  padTo 30 (byte x.state.code :: leBytes 2 x.r ++ le32 x.phi ++ leSigned 5 x.q ++ leSigned 5 x.u ++ leSigned 4 x.offT
    ++ leSigned 4 x.offA ++ leSigned 4 x.jogSpeed)

/-- One channel record (log entry 39). -/
def pageChannel (c : Channel) : List Byte :=
  let marks := flagBit 0 c.late + flagBit 1 c.flags.noReply + flagBit 2 c.flags.following + flagBit 3 c.flags.driveFault
    + flagBit 4 c.ready + flagBit 5 c.driveFault + flagBit 6 c.torqueReached
  padTo 22 ([byte c.state.code, byte marks] ++ leBytes 2 (c.followCtr + 16 * c.noReplyCtr + 256 * c.driveCtr)
    ++ le32 c.s ++ le32 c.a ++ leSigned 4 c.c ++ leSigned 4 c.err ++ leSigned 2 c.torque)

/-- 0x094 and 0x10C: sections and channels. -/
def pageGear (s : State) : List Byte :=
  padTo 120 (s.gu.sections.toList.flatMap pageSection) ++ padTo 264 (s.gu.channels.toList.flatMap pageChannel)

/-- One trip input: DISABLED, QUIET or TRIPPING, and the level sampled last. -/
def pageInput (x : TripInput) : Byte :=
  byte ((if x.enabled then (if x.tripping then 2 else 1) else 0) + flagBit 2 x.sampled)

/-- 0x214: trips (log entry 39). DESIGN CHOICE (log entry 88): the line trip level last formed is that of the last cycle start, the
line term, and not the one that LINE_REARM formed for its test since (R108, R110). -/
def pageTrips (s : State) : List Byte :=
  padTo 24 ([byte (localLevel s).code, byte (tableLevel s).code, byte (effLevel s).code, byte s.tc.lineTerm.code,
      byte (lineStateOf s).code, byte s.tc.lineTerm.code, byte s.tc.table.length, byte (ownEntries s),
      byte (unstored s).length, byte s.tc.queue.length] ++ s.tc.inputs.toList.map pageInput)

/-- One ring port: the UP time is counted in whole milliseconds. -/
def pagePort (s : State) (p : Port) : List Byte :=
  let x := s.ri.ports[p]
  let up := match x.upSince with
    | none => 0
    | some t => (nowOf s - t) / 1000000
  [byte x.state.code] ++ leBytes 2 (min up 65535) ++ leBytes 4 (x.delay.getD 0xFFFFFFFF) ++ [x.probeNumber]

/-- 0x22C: the ring. -/
def pageRing (s : State) : List Byte :=
  padTo 24 (pagePort s portA ++ pagePort s portB ++ [byte s.ri.mode.code, byte (placesInUse s).length])

/-- One stream: its last frame begun is the frame in progress. -/
def pageStream (x : Stream) : List Byte :=
  let f := x.frames.getLast?
  padTo 24 ([byte x.state.code] ++ le32 ((x.nextRow.map (·.frame)).getD 0) ++ leBytes 2 ((x.nextRow.map (·.j)).getD 0)
    ++ [satByte x.plan.length, byte x.outstanding.length] ++ le32 ((f.map (·.number)).getD 0)
    ++ leBytes 2 (min ((f.map (·.resolved)).getD 0) 65535) ++ [boolByte x.broken] ++ leBytes 2 x.dark ++ leBytes 2 x.bright
    ++ [byte x.lastMean])

/-- 0x244: the streams. -/
def pageStreams (s : State) : List Byte := padTo 48 (s.cu.toList.flatMap pageStream)

/-- One pool. DESIGN CHOICE (log entry 39): of the byte "FREE and FULL buffer counts (four bits each)" FREE has the low four. -/
def pagePool (p : Pool) : List Byte :=
  let count := fun (q : Buffer → Bool) => (p.buffers.filter q).length
  padTo 18 ([byte (flagBit 0 p.configured + flagBit 1 p.notify), bufferByte p.filling,
      bufferByte (p.pendingTarget.map (·.buffer)),
      byte (count (fun b => decide (b.state = .free)) + 16 * count (fun b => decide (b.state = .full))),
      byte (count fun b => decide (0 < b.readers))] ++ le32 p.nextSeq ++ le32 p.completed ++ le32 p.skipped)

/-- 0x274: the pools. -/
def pagePools (s : State) : List Byte := padTo 108 (s.pm.pools.toList.flatMap pagePool)

/-- One outgoing view. -/
def pageView (x : View) : List Byte :=
  let f := x.current
  padTo 16 ([byte x.state.code] ++ le32 (x.last.getD 0) ++ le32 ((f.map (·.sequence)).getD 0)
    ++ leBytes 2 ((f.map (·.next)).getD 0) ++ leBytes 2 ((f.map (·.count)).getD 0))

/-- 0x2E0 and 0x320: the views. -/
def pageViews (s : State) : List Byte :=
  padTo 64 (s.ve.views.toList.flatMap pageView)
    ++ padTo 8 (leBytes 2 s.ve.allowance ++ [byte s.ve.quiet] ++ leBytes 2 s.ve.budget)

/-- One receive binding; the segment fields stand for an OPEN assembly (R160; log entry 39). -/
def pageBinding (x : Binding) : List Byte :=
  let live := decide (x.asm = .openA)
  let shown := fun (n : Nat) => leBytes 2 (if live then n else 0)
  padTo 16 ([(x.source.map fun y => byte y.1.val).getD 0xFF, (x.source.map fun y => byte y.2).getD 0]
    ++ leBytes 2 x.timeout ++ le32 (x.last.getD 0) ++ [byte x.asm.code] ++ shown x.next ++ shown x.count ++ shown x.idle)

/-- 0x328: the receive bindings. -/
def pageBindings (s : State) : List Byte := padTo 64 (s.ve.bindings.toList.flatMap pageBinding)

/-- 0x368: the screen. -/
def pageScreen (s : State) : List Byte :=
  let x := s.sc
  padTo 16 ([boolByte x.enabled] ++ leBytes 2 x.width ++ leBytes 2 x.height ++ [byte x.clock] ++ le32 x.frames
    ++ leBytes 2 x.signature.toNat ++ [boolByte x.alarm] ++ leBytes 2 x.duty
    ++ [byte ((x.loads[(0 : Fin 2)]).state.code + 4 * (x.loads[(1 : Fin 2)]).state.code)])

/-- 0x378: the memory port. -/
def pageMemPort (s : State) : List Byte :=
  padTo 8 [boolByte s.mp.camerasFirst, byte s.mp.camLow, byte s.mp.camHigh, byte s.mp.scrLow, byte s.mp.scrUrgent]

/-! ### The count area (R189) -/

/-- R110 in table order. -/
def tripCounts (t : TripCtl) : List Word :=
  [t.replacements, t.overflows, t.suppressed, t.sent, t.accepted, t.duplicates, t.stale, t.reconciliations, t.expiries]

/-- R59 in table order. -/
def driveCounts (d : DriveLine) : List Word :=
  [d.sent, d.valid, d.missing, d.invalid, d.late, d.slips, d.contention]

/-- The grants in SCREEN_FIRST order. -/
def grantCounts (m : MemPort) : List Word := [m.screen, m.camera0, m.camera1, m.ringIn, m.window, m.ringOut]

/-- R84 in table order. -/
def ringCounts (r : Ring) : List Word :=
  let a := r.ports[portA]
  let b := r.ports[portB]
  [a.symbolErrors, b.symbolErrors, a.crcErrors, b.crcErrors, r.hopRemovals, r.viewDiscards, r.storeDiscards, r.misrouted,
    a.probeFailures, b.probeFailures, r.repeated, r.ownSent.beat, r.ownSent.trip, r.ownSent.view, r.ownSent.probe,
    r.ownSent.reply]

/-- The sending counts of a view (R160). -/
def viewCounts (x : View) : List Word := [x.sent, x.framesSent, x.empty, x.truncations, x.readErrors]

/-- R129 in table order. -/
def captureCounts (x : Stream) : List Word :=
  let c := x.counts
  [c.fired, c.missedRows, c.overruns, c.timeouts, c.spurious, c.longRows, c.shortRows, c.clippedRows, c.discarded,
    c.fifoOverruns, c.completed, c.resyncs]

/-- The receiving counts of a binding (R160). -/
def bindingCounts (x : Binding) : List Word :=
  [x.accepted, x.duplicates, x.gaps, x.invalid, x.skipped, x.supersessions, x.timeouts]

/-- The counts of a group (R189). -/
def groupCounts (s : State) (group : Nat) : List Word :=
  match group with
  | 0 => [s.wc.scans, s.wc.skippedScans, s.wc.skippedPublishes, s.wc.faults, s.ct.late] ++ driveCounts s.dlc
      ++ tripCounts s.tc ++ grantCounts s.mp ++ [s.sc.frames, s.sc.underruns, s.sc.readErrors]
  | 1 => ringCounts s.ri ++ [s.ve.unbound] ++ viewCounts s.ve.views[(0 : Fin 4)] ++ viewCounts s.ve.views[(1 : Fin 4)]
      ++ viewCounts s.ve.views[(3 : Fin 4)]
  | 2 => s.cu.toList.flatMap captureCounts ++ viewCounts s.ve.views[(2 : Fin 4)]
  | _ => s.ve.bindings.toList.flatMap bindingCounts

/-- 0x380: the count area of a page published under `count`. -/
def pageCounts (s : State) (count : Word) : List Byte := padTo 128 ((groupCounts s (count.toNat % 4)).flatMap le32)

/-- The 1 KiB of a status page published under `count` (11.5). -/
def statusPage (s : State) (count : Word) : List Byte :=
  pageCycle s count ++ pageLine s ++ pagePresent s ++ pageGear s ++ pageTrips s ++ pageRing s ++ pageStreams s
    ++ pagePools s ++ pageViews s ++ pageBindings s ++ pageScreen s ++ pageMemPort s ++ pageCounts s count

end Sys2Proof.Machine
end

