-- ==== Sys2Proof/Machine/WindowCtl.lean ====
section
/-! DEFINITION. The Window Controller (chapter 10) but for the board scan: opening the window, attention, final writes, publishes,
the mirror, window faults and the resumption. -/

namespace Sys2Proof.Machine

/-! ### Opening the window (R175) -/

/-- The base as stored: its lowest 13 bits are 0. -/
def windowBase (value : Addr) : Addr := (value >>> 13) <<< 13

/-- The header that opens the window: publish count and page as they stand, which are 0 and A (R175). DESIGN CHOICE (log entry
81): its node state and cycle number are those of the opening. -/
def openingHeader (s : State) : Header :=
  { nodeState := s.ct.nodeState, pageB := s.wc.currentB, cycle := s.ct.n, publishCount := s.wc.publishCount, version := 0,
    attn := s.wc.attn }

/-- The window opens: the header and the mirror are written. -/
def openWindow (s : State) : State := startMirror (issueHeader .plain false (openingHeader s) s)

/-- WINBASE_WRITE (R175, R176). -/
def execWinbaseWrite (value : Addr) (s : State) : Outcome :=
  .next <|
    if s.wc.resetting || decide (s.wc.winbase ≠ 0) then s
    else if windowBase value = 0 then s
    else openWindow { s with wc := { s.wc with winbase := windowBase value } }

/-! ### Attention (R184) -/

/-- The reasons written 1 are cleared. -/
def clearAttn (ones : BitVec 6) (s : State) : State := { s with wc := { s.wc with attn := s.wc.attn &&& ~~~ones } }

/-- ATTN_CLEAR (R184). -/
def execAttnClear (ones : BitVec 6) (s : State) : Outcome := .next (asRegisterWrite (clearAttn ones) s)

/-- ATTENTION_MASK_WRITE (R176); ignored during a node reset. -/
def execAttentionMaskWrite (mask : BitVec 6) (s : State) : Outcome :=
  .next (if s.wc.resetting then s else asRegisterWrite (fun s => { s with wc := { s.wc with mask := mask } }) s)

/-! ### Final writes (R180) -/

/-- The state byte of a cell whose result fields have landed is written, with the read that reports it. -/
def writeFinal (cell : Fin 16) (r : Result) (s : State) : State :=
  modRecord cell (fun rec => { rec with phase := .final })
    (issueItems [writeItem s (.cell cell) false (cellOffset cell) [r.stateByte], flushItem s (.cell cell) false] s)

/-- The final write has landed: the record becomes free, and BOARD is set (R178, R180). -/
def freeCell (cell : Fin 16) (s : State) : State :=
  setAttn .board { s with wc := { s.wc with records := s.wc.records.set cell none } }

/-- FINAL_WRITE (R180): what the WC does when the write last issued for a cell's result has landed (log entry 26). -/
def execFinalWrite (cell : Fin 16) (s : State) : Outcome :=
  .next <|
    match s.wc.records[cell] with
    | none => s
    | some rec =>
      match rec.result with
      | none => s
      | some r =>
        if windowOn s && landed s (.cell cell) then
          match rec.phase with
          | .kept => s
          | .fields => writeFinal cell r s
          | .final => freeCell cell s
        else s

/-! ### Publishing (R182) -/

/-- The window offset of the page that the selector does not name. -/
def otherPage (s : State) : Nat := if s.wc.currentB then 0x0800 else 0x0C00

/-- R182 at an issue event. -/
def beginPublish (s : State) : State :=
  if windowOn s then
    if s.wc.publish = .idle then
      let image := statusPage s (s.wc.publishCount + 1)
      issueItems (kibItems s .page true (otherPage s) image ++ [flushItem s .page true])
        { s with wc := { s.wc with publish := .page s.ct.n } }
    else { s with wc := { s.wc with skippedPublishes := s.wc.skippedPublishes + 1 } }
  else s

/-- R182, step 3. DESIGN CHOICE (log entry 80): the node state in the header is that at the landing of the page. -/
def publishHeader (cycle : Word) (s : State) : State :=
  let s := { s with wc := { s.wc with currentB := !s.wc.currentB, publishCount := s.wc.publishCount + 1,
                                      publish := .header } }
  issueHeader .publishHeader true
    { nodeState := s.ct.nodeState, pageB := s.wc.currentB, cycle := cycle, publishCount := s.wc.publishCount,
      version := s.wc.header.version, attn := s.wc.attn } s

/-- PUBLISH_PAGE_LANDED (R182). -/
def execPublishPageLanded (s : State) : Outcome :=
  .next <|
    match s.wc.publish with
    | .page cycle => if windowOn s && landed s .page then publishHeader cycle s else s
    | .idle | .header => s

/-- PUBLISH_END (R182). -/
def execPublishEnd (s : State) : Outcome :=
  .next <|
    if s.wc.publish = .header then
      if windowOn s && landed s .publishHeader then
        setAttn .page { s with wc := { s.wc with publish := .idle } }
      else s
    else s

/-! ### The mirror (R183) -/

/-- R183, step 3, and the rewrite that a stale mark starts. -/
def endMirror (m : Mirror) (s : State) : State :=
  let s := issueHeader .plain false { s.wc.header with version := m.version } { s with wc := { s.wc with mirror := none } }
  if m.stale then startMirror s else s

/-- MIRROR_REWRITE_END (R183). -/
def execMirrorRewriteEnd (s : State) : Outcome :=
  .next <|
    match s.wc.mirror with
    | none => s
    | some m => if windowOn s && landed s .mirror then endMirror m s else s

/-! ### Window faults and the resumption (R187) -/

/-- The fill-target requests whose hold reads will not return are answered as at a request during the fault (R132; log
entry 38). -/
def answerFaulted (p : Fin 6) (s : State) : State :=
  match s.pm.pools[p].request with
  | none => s
  | some r =>
    let (s, t) := makeChoice p r (knownHolds s.pm.pools[p]) (modPool p (fun x => { x with request := none }) s)
    match streamOf p, bindingOf p with
    | some u, _ => takeTarget u t s
    | none, some b => takeRecvTarget b t s
    | none, none => s

/-- The window requester stops: nothing waits, no scan, publish or rewrite is in progress, and results not yet written are
kept (R187). -/
def stopWindow (s : State) : State :=
  let records := mapV (fun _ r => Option.map (fun (x : CellRecord) => { x with phase := .kept }) r) s.wc.records
  { s with wc := { s.wc with queue := [], scanning := false, descRead := [], publish := .idle, mirror := none, fault := true,
                             records := records }
           pm := { s.pm with work := [] } }

/-- R187: a window transaction ended in a bus error; nothing further while a fault stands. DESIGN CHOICE (log entry 100): an error
that traffic granted before a reset reports while the window is closed is ignored. -/
def windowFault (s : State) : State :=
  if s.wc.fault || decide (s.wc.winbase = 0) then s
  else
    let s := stopWindow { s with wc := { s.wc with faults := s.wc.faults + 1 } }
    let s := reportPresent .window 0 .note (setAttn .windowFault s)
    (indices 6).foldl (fun s p => answerFaulted p s) s

/-- R187: the window resumes. -/
def resumeWindow (s : State) : State :=
  if s.wc.fault then
    let s := reportGone .window 0 s
    let s := { s with wc := { s.wc with fault := false } }
    let s := startMirror (issueHeader .plain false s.wc.header s)
    rewritePools ((indices 16).foldl (fun s c => issueResult c s) s)
  else s

end Sys2Proof.Machine
end

