-- ==== Sys2Proof/Machine/Cycle.lean ====
section
/-! DEFINITION. The Cycle Timer and the Axis Generator (chapter 1): cycle starts, the intake, compute and issue events, the gear
input, beat arrival, and their commands. -/

namespace Sys2Proof.Machine

/-! ### Phases (R2, R3) -/

/-- The three phases of a cycle, in microseconds. -/
structure Phases where
  pIn : Nat
  pCo : Nat
  pIs : Nat
deriving DecidableEq, Repr

/-- R3: the default set of a period. -/
def defaultPhases : Period → Phases
  | .us125 => ⟨14, 25, 105⟩
  | .us250 => ⟨30, 50, 210⟩
  | .us500 => ⟨60, 100, 420⟩
  | .us1000 => ⟨120, 200, 840⟩

/-- R3: phases scaled from one period to another, repaired, or the default set. -/
def scalePhases (old new : Period) (p : Phases) : Phases :=
  let scale := fun (x : Nat) => x * Period.us new / Period.us old
  let is : Int := (scale p.pIs : Nat)
  let co := min ((scale p.pCo : Nat) : Int) (is - 21)
  let inn := min ((scale p.pIn : Nat) : Int) (co - 11)
  if co < 0 ∨ inn < 0 then defaultPhases new else ⟨inn.toNat, co.toNat, is.toNat⟩

/-- R2: the order and spacing that the phases of a period keep. -/
def phasesOk (period : Period) (p : Phases) : Bool :=
  decide (p.pIn + 10 < p.pCo ∧ p.pCo + 20 < p.pIs ∧ p.pIs < Period.us period)

def phasesOf (c : CycleTimer) : Phases := ⟨c.pIn, c.pCo, c.pIs⟩

/-- The period and the phases in force are replaced. -/
def CycleTimer.setPeriod (period : Period) (p : Phases) (c : CycleTimer) : CycleTimer :=
  { c with period := period, pIn := p.pIn, pCo := p.pCo, pIs := p.pIs }

/-- R3: a period is adopted. -/
def adopt (period : Period) (s : State) : State :=
  if s.ct.period = period then s
  else { s with ct := CycleTimer.setPeriod period (scalePhases s.ct.period period (phasesOf s.ct)) s.ct }

/-- R2 at a cycle start: pending values apply; a node that is not the line master keeps its period, and takes the phases
scaled where a period has been adopted meanwhile (R3). -/
def applyPendingCycle (s : State) : State :=
  match s.ct.pendingCycle with
  | none => s
  | some p =>
    let given : Phases := ⟨p.pIn, p.pCo, p.pIs⟩
    let c := { s.ct with pendingCycle := none }
    if isMaster s then { s with ct := CycleTimer.setPeriod p.period given c }
    else
      let phases := if p.period = c.period then given else scalePhases p.period c.period given
      { s with ct := CycleTimer.setPeriod c.period phases c }

/-! ### The Axis Generator (R7 to R9, R12) -/

/-- R8: the speed after one acceleration step. -/
def rampSpeed (v demand : Int) (aUp aDown : Nat) : Int :=
  if v < demand then v + min (demand - v) ((if 0 ≤ v then aUp else aDown : Nat) : Int)
  else if demand < v then v - min (v - demand) ((if 0 < v then aDown else aUp : Nat) : Int)
  else v

/-- R8 and R9: the demand and the speed after step 2 of R7. -/
def nextSpeed (level : Level) (a : AxisGen) : Int × Int :=
  if level = .cut then (0, 0)
  else if level = .stop ∨ a.lineState = .stopping then (0, moveToward a.v 0 a.aStop)
  else (a.demand, rampSpeed a.v a.demand a.aUp a.aDown)

/-- R12. -/
def nextLineState (level : Level) (demand v : Int) (l : LineState) : LineState :=
  match l, level with
  | .torqueOff, _ => .torqueOff
  | _, .cut => .torqueOff
  | .halted, _ => .halted
  | .stopping, _ => if v = 0 then .halted else .stopping
  | .standstill, .stop => if v = 0 then .halted else .stopping
  | .running, .stop => if v = 0 then .halted else .stopping
  | .standstill, _ => if v ≠ 0 ∨ demand ≠ 0 then .running else .standstill
  | .running, _ => if v ≠ 0 ∨ demand ≠ 0 then .running else .standstill

/-- R7, steps 2 to 4. -/
def AxisGen.advance (level : Level) (a : AxisGen) : AxisGen :=
  let (demand, v) := nextSpeed level a
  { a with demand := demand, v := v, theta := word (posOf a.theta + v), lineState := nextLineState level demand v a.lineState }

/-- A queued BEAT. -/
def isBeat : OwnFrame → Bool
  | .beat _ => true
  | .probe _ _ | .reply _ _ _ _ => false

/-- A BEAT is queued, or replaces one of an earlier cycle that is still unsent (R66). DESIGN CHOICE (log entry 95): it keeps that
one's place in the order of the class 3 frames, of which R66 does not speak. -/
def putBeat (b : QueuedBeat) (q : List OwnFrame) : List OwnFrame :=
  if q.any isBeat then q.map fun f => if isBeat f then .beat b else f else q ++ [.beat b]

/-- R7, step 5; left out once beat origination is stopped (R75). DESIGN CHOICE (log entry 85): a BEAT carries HEAL as it stands
when it is queued, so that one queued before the heal run reaches 8 is launched with it (R83). -/
def queueBeat (level : Level) (s : State) : State :=
  if s.ri.stopped then s
  else
    let b : QueuedBeat :=
      { cycle := s.ct.n, start := s.ct.start, theta := s.ag.theta, v := s.ag.v, lineState := s.ag.lineState,
        level := level, period := s.ct.period, heal := s.ri.healFlag }
    { s with ri := { s.ri with own := putBeat b s.ri.own } }

/-- R7 at a cycle start of the line master: the line trip level, the axis, the HEAL flag, the BEAT, and the GU's θ and v. -/
def axisStart (s : State) : State :=
  if isMaster s && decide (s.ct.nodeState ≠ .config) then
    let level := lineLevel s
    let s := setLineTerm level s
    let s := healAtCycleStart { s with ag := AxisGen.advance level s.ag }
    let s := queueBeat level s
    { s with gu := { s.gu with taken := some { theta := s.ag.theta, v := s.ag.v, lineState := s.ag.lineState } } }
  else s

/-! ### Cycle start (R1, R2, R5, R152) -/

/-- Cycle `n` starts at `start`: no event of it is raised, pending SET_CYCLE values apply, and the budget is set. -/
def openCycle (n : Word) (start : Int) (s : State) : State :=
  let s := { s with ct := { s.ct with n := n, start := start, raisedIn := false, raisedCo := false, raisedIs := false }
                    gu := { s.gu with taken := none } }
  resetBudget (applyPendingCycle s)

/-- Where the current cycle ends without a beat (R1). -/
def cycleEnd (s : State) : Int := s.ct.start + (Period.ns s.ct.period : Int)

/-- R1: the CT runs freely into the next cycle. -/
def freeRun (s : State) : State := axisStart (openCycle (s.ct.n + 1) (cycleEnd s) s)

/-- CYCLE_START (R1; log entry 17). -/
def execCycleStart (now : Time) (s : State) : Outcome :=
  let s := advance now s
  .next (if !s.wc.resetting && decide (cycleEnd s ≤ (nowOf s : Int)) then freeRun s else s)

/-! ### The intake event (R91, R179) -/

/-- The board read of a scan (R179). DESIGN CHOICE (log entry 79): it is 16 transactions, one a cell, and the descriptors of a
SET_POOL are read by one transaction each. -/
def scanReads (s : State) : List WinItem :=
  (indices 16).map fun c => { group := .scan, publish := false, addr := windowAddr s (cellOffset c), bytes := [] }

/-- R179: a scan begins, or is skipped while the previous one's reads are outstanding. DESIGN CHOICE (log entry 68): the count
of scans (R182) takes a scan in as its reads are issued, so that one that ends in a bus error or takes no cell counts too. -/
def beginScan (s : State) : State :=
  if windowOn s then
    if s.wc.scanning then { s with wc := { s.wc with skippedScans := s.wc.skippedScans + 1 } }
    else issueItems (scanReads s) { s with wc := { s.wc with scanning := true, descRead := [], scans := s.wc.scans + 1 } }
  else s

/-- The intake event is raised (R1, R91, R179). -/
def raiseIntake (tin : Byte) (s : State) : State :=
  beginScan (sampleInputs tin { s with ct := { s.ct with raisedIn := true } })

/-- The local time at which the intake event is due. -/
def intakeDue (s : State) : Int := s.ct.start + 1000 * (s.ct.pIn : Int)

def computeDue (s : State) : Int := s.ct.start + 1000 * (s.ct.pCo : Int)

def issueDue (s : State) : Int := s.ct.start + 1000 * (s.ct.pIs : Int)

/-- The next event of the cycle is the intake event, and its time has come. -/
def intakeReady (s : State) : Bool := !s.ct.raisedIn && decide (intakeDue s ≤ (nowOf s : Int))

/-- The next event of the cycle is the compute event, and its time has come. -/
def computeReady (s : State) : Bool :=
  s.ct.raisedIn && !s.ct.raisedCo && decide (computeDue s ≤ (nowOf s : Int))

/-- The next event of the cycle is the issue event, and its time has come. -/
def issueReady (s : State) : Bool := s.ct.raisedCo && !s.ct.raisedIs && decide (issueDue s ≤ (nowOf s : Int))

/-- INTAKE (R1). -/
def execIntake (now : Time) (tin : Byte) (s : State) : Outcome :=
  let s := advance now s
  .next (if !s.wc.resetting && intakeReady s then raiseIntake tin s else s)

/-! ### The gear input (R13 to R19) -/

/-- R18: the lead term. -/
def leadTerm (v : Int) (lead : Nat) : Int := roundDiv (v * (lead : Int)) 256

/-- R18: the extrapolated position. -/
def extrapolate (theta : Word) (v : Int) (lead : Nat) : Word := word (posOf theta + leadTerm v lead)

/-- R19: the gear input that θ_c and v_c would give against the last used ones. -/
def gearInput (s : State) (theta : Word) (v : Int) : Int :=
  posDiff (extrapolate theta v s.ct.lead) (extrapolate s.gu.lastTheta s.gu.lastV s.ct.lead)

/-- R18 and R19: the gear input is formed from θ_c and v_c; `restart` restarts its continuity. -/
def formGear (theta : Word) (v : Int) (restart : Bool) (s : State) : State :=
  let restart := restart || !s.gu.continuous
  { s with gu := { s.gu with
      thetaX := extrapolate theta v s.ct.lead
      delta := if restart then 0 else gearInput s theta v
      lastTheta := theta, lastV := v, continuous := true, formed := true, formedNow := true, restarted := restart } }

/-- R14: the constant-speed substitute. -/
def holdSubstitute (s : State) : State := formGear (word (posOf s.gu.lastTheta + s.gu.lastV)) s.gu.lastV false s

/-- R15: the decelerating substitute. -/
def slowSubstitute (s : State) : State :=
  let v := moveToward s.gu.lastV 0 s.ag.aStop
  formGear (word (posOf s.gu.lastTheta + v)) v false s

/-- R15: the state ISOLATED is entered. -/
def toIsolated (s : State) : State :=
  let s := setNodeState .isolated s
  { s with ct := { s.ct with lock := false } }

/-- R15: the BEAT_LOST condition. -/
def raiseBeatLost : State → State := reportPresent .beatLost 0 .stop

/-- R15 at a compute event. DESIGN CHOICE (log entry 52): BEAT_LOST takes the θ_x formed at this same event (R87), since the
substitute gear input is formed first. -/
def isolate (s : State) : State := raiseBeatLost (slowSubstitute (toIsolated s))

/-- |Δ| ≥ 2^24 (R15, R19). -/
def tooFar (delta : Int) : Bool := decide (16777216 ≤ delta.natAbs)

/-- R14, R15, R19: a taken beat at the compute event of a node in ONLINE, HOLDOVER or PASSIVE. -/
def followBeat (t : TakenBeat) (s : State) : State :=
  if s.gu.continuous && tooFar (gearInput s t.theta t.v) then
    if s.ct.nodeState = .passive then formGear t.theta t.v true s else isolate s
  else formGear t.theta t.v false s

/-- R14: the cycle counts as missed. -/
def countMissed (s : State) : State := { s with ct := { s.ct with missed := satInc 255 s.ct.missed } }

/-- R14, R15: a missed cycle in ONLINE or HOLDOVER. -/
def missBeat (s : State) : State :=
  let s := countMissed s
  if s.ct.limit ≤ s.ct.missed then isolate s else holdSubstitute (setNodeState .holdover s)

/-- R80: the entry cable of the node has a measured delay. -/
def entryMeasured (s : State) : Bool :=
  match primaryInput s.ri.mode with
  | none => false
  | some p => s.ri.ports[p].delay.isSome

/-- R16: a taken beat carries a line state at which the node leaves ISOLATED. -/
def endsIsolation (l : LineState) : Bool :=
  match l with
  | .halted | .torqueOff | .standstill => true
  | .running | .stopping => false

/-- R16 and R43: the node leaves ISOLATED. DESIGN CHOICE (log entry 93): BEAT_LOST is reported gone before the sections are forced
to HELD and their cells end CANCELLED, where R16 and R43 give no order. -/
def leaveIsolated (t : TakenBeat) (s : State) : State :=
  let s := formGear t.theta t.v true (setNodeState .online s)
  leaveIsolatedAction (reportGone .beatLost 0 s)

/-- R13, R43: the restart and the action owed by a node that became PASSIVE while ISOLATED (log entry 34). -/
def settlePassive (s : State) : State :=
  if s.gu.leftIsolated then leaveIsolatedAction { s with gu := { s.gu with leftIsolated := false, continuous := false } }
  else s

/-- The gear input of a compute event, by node state (R7, R13 to R16). -/
def axisEvent (s : State) : State :=
  let s := { s with gu := { s.gu with formedNow := false, restarted := false } }
  if s.ct.nodeState = .config then s
  else if isMaster s then formGear s.ag.theta s.ag.v false s
  else
    match s.ct.nodeState, s.gu.taken with
    | .config, _ => s
    | .joining, none => s
    | .joining, some t => if entryMeasured s then formGear t.theta t.v true (setNodeState .online s) else s
    | .online, some t => followBeat t s
    | .online, none => missBeat s
    | .holdover, some t => followBeat t (setNodeState .online s)
    | .holdover, none => missBeat s
    | .isolated, some t => if endsIsolation t.lineState then leaveIsolated t s else slowSubstitute s
    | .isolated, none => slowSubstitute (countMissed s)
    | .passive, some t => followBeat t (settlePassive s)
    | .passive, none => holdSubstitute (countMissed (settlePassive s))

/-! ### The compute event -/

/-- R17 at a compute event. -/
def applyHoldover (s : State) : State :=
  match s.ct.pendingHoldover with
  | none => s
  | some (lead, limit) => { s with ct := { s.ct with lead := lead, limit := limit, pendingHoldover := none } }

/-- R41 and R42 at each compute event at which the level still stands. -/
def repeatActions (s : State) : State :=
  let s := if effLevel s = .cut then cutAction s else s
  if (effLevel s).isStop then stopAction s else s

/-- The Gear Unit at a compute event (R18, R19, R26, R41, R42, R43). -/
def gearEvent (s : State) : State :=
  let s := repeatActions (axisEvent s)
  if s.ct.nodeState = .config then s else computeSetpoints s.gu.delta s

/-- R115 at a compute event that formed a gear input. -/
def planEvent (s : State) : State := if s.gu.formedNow then planTriggers s.gu.lastV s else s

/-- The Ring Interface at a compute event (R78, R81, R82; log entry 21). -/
def ringEvent (s : State) : State := queueProbe portB (queueProbe portA (rejoin (testHealMark s)))

/-- The Trip Controller at a compute event, before the gear input (R87, R98). -/
def tripEvent (s : State) : State := expire (ageEntries s)

/-- The compute event is raised (R1). DESIGN CHOICE (log entry 53): the refresh of R95 is queued last, after the gear input
and the ring events of the event, whose bursts therefore take queue places before it. -/
def raiseCompute (lineFree : Time) (s : State) : State :=
  let s := gearEvent (tripEvent (applyHoldover { s with ct := { s.ct with raisedCo := true } }))
  let s := countIdle (startViewFrames (planEvent (drawTimetable lineFree s)))
  queueRefresh (ringEvent s)

/-- COMPUTE (R1): `lineFree` is the moment from which the drive line has been idle for 20 bit times but for a SYNC that
waits. -/
def execCompute (now : Time) (lineFree : Time) (s : State) : Outcome :=
  let s := advance now s
  .next (if !s.wc.resetting && computeReady s then raiseCompute lineFree s else s)

/-- ENTER_ISOLATED (R15; log entry 16). -/
def execEnterIsolated (s : State) : Outcome :=
  .next <|
    if !isMaster s && decide ((s.ct.nodeState = .online ∨ s.ct.nodeState = .holdover) ∧ s.ct.limit ≤ s.ct.missed) then
      raiseBeatLost (toIsolated s)
    else s

/-! ### The issue event (R51, R182) -/

/-- The issue event is raised (R1). -/
def raiseIssue (s : State) : State := beginPublish (issueDrive { s with ct := { s.ct with raisedIs := true } })

/-- ISSUE (R1). -/
def execIssue (now : Time) (s : State) : Outcome :=
  let s := advance now s
  .next (if !s.wc.resetting && issueReady s then raiseIssue s else s)

/-! ### Beat arrival (R4 to R6, R74, R75, R82, R99) -/

/-- R75: the duplicate-master test. DESIGN CHOICE (log entry 86): a further foreign BEAT, with the condition present already, is no
occurrence of it (R86, R88). -/
def foreignBeat (s : State) : State :=
  let s := { s with ri := { s.ri with stopped := true, own := s.ri.own.filter fun f => !isBeat f } }
  if (findCond s .duplicate 1).isSome then s else reportPresent .duplicate 1 .cut s

/-- R13 and R74: the node becomes PASSIVE. DESIGN CHOICE (log entry 92): a node that was ISOLATED reports BEAT_LOST gone before
DUPLICATE 0 present, where R13 and R74 give no order. -/
def becomePassive (s : State) : State :=
  let left := decide (s.ct.nodeState = .isolated)
  let s := setNodeState .passive s
  let s := if left then reportGone .beatLost 0 { s with gu := { s.gu with leftIsolated := true } } else s
  if (findCond s .duplicate 0).isSome then s else reportPresent .duplicate 0 .cut s

/-- R5: what becomes of a beat. -/
inductive Placement | late | current | new
deriving DecidableEq, Repr

/-- R5. -/
def placeBeat (s : State) (tS : Int) (n : Word) : Placement :=
  if tS + 1000 * (s.ct.pCo : Int) ≤ (nowOf s : Int) then .late
  else if n = s.ct.n ∧ s.ct.raisedCo = false then .current
  else if n = s.ct.n + 1 ∨ (s.ct.lock = false ∧ n ≠ s.ct.n) then .new
  else .late

/-- R5: the events of the current cycle not yet raised are raised at once, in phase order. -/
def raiseRest (tin : Byte) (lineFree : Time) (s : State) : State :=
  let s := if s.ct.raisedIn then s else raiseIntake tin s
  let s := if s.ct.raisedCo then s else raiseCompute lineFree s
  if s.ct.raisedIs then s else raiseIssue s

/-- R6: the events whose time is already past are raised at once, in phase order. -/
def raiseDue (tin : Byte) (lineFree : Time) (s : State) : State :=
  let s := if intakeReady s then raiseIntake tin s else s
  let s := if computeReady s then raiseCompute lineFree s else s
  if issueReady s then raiseIssue s else s

/-- The slots of a beat as R99 tests them. -/
def beatSlots (b : Beat) (a : NodeAddr) : Option (Level × Nat) :=
  let x := b.slots[a]
  if stampedIn b.cycle x then some (x.level, x.entries.toNat) else none

/-- R6: a beat is taken into the cycle that stands open, whose predicted start was `predicted`. -/
def takeBeat (b : Beat) (tS predicted : Int) (s : State) : State :=
  let ct := { s.ct with start := tS, n := b.cycle, correction := if s.ct.lock then tS - predicted else 0, lock := true,
                        missed := 0 }
  let s := adopt b.period { s with ct := ct }
  let s := { s with gu := { s.gu with taken := some { theta := b.theta, v := int32 b.v, lineState := b.lineState } } }
  let s := if s.ct.nodeState = .holdover then setNodeState .online s else s
  let s := setLineTerm b.level { s with tc := { s.tc with lineState := b.lineState } }
  moveQuietWindow (reconcile (beatSlots b) b.cycle s)

/-- R4 to R6 on a node that takes beats (log entry 47). -/
def placeAndTake (tS : Int) (tin : Byte) (lineFree : Time) (b : Beat) (s : State) : State :=
  match placeBeat s tS b.cycle with
  | .late => { s with ct := { s.ct with late := s.ct.late + 1 } }
  | .current => raiseDue tin lineFree (takeBeat b tS s.ct.start s)
  | .new =>
    let s := raiseRest tin lineFree s
    let predicted := cycleEnd s
    raiseDue tin lineFree (takeBeat b tS predicted (openCycle b.cycle tS s))

/-- R74: the finding held for the beat whose start delimiter came at `sd`, all of which has come in. -/
def duplicateFound (s : State) (sd : Nat) : Bool :=
  s.ri.beatIn.any fun x => decide (x.sd = sd) && (x.duplicate || (x.stamped && writesSlots s))

/-- R72: the own transit of the beat whose start delimiter came at `sd`. -/
def arrivalTransit (s : State) (sd : Nat) (b : Beat) : Word :=
  match s.ri.beatIn.filter fun x => decide (x.sd = sd) with
  | some x => x.transit
  | none => ownTransit s b.transit

/-- R4: the beat's cycle start. -/
def beatStart (sd : Time) (transit lateness : Word) : Int := (sd.toNat : Int) - posOf transit - posOf lateness

/-- R4, R69: an intact BEAT of another source has ended on the primary input. DESIGN CHOICE (log entry 51): a node that finds
the duplicate becomes PASSIVE before the CT places the same beat, so that events it raises at once run in PASSIVE. DESIGN CHOICE
(log entry 94): the heal mark is set (R82) before the CT places the beat, so that a compute event it raises at once tests it. -/
def arriveBeat (sd : Time) (tin : Byte) (lineFree : Time) (b : Beat) (s : State) : State :=
  let found := duplicateFound s sd.toNat
  let tS := beatStart sd (arrivalTransit s sd.toNat b) b.lateness
  let s := { s with ri := { s.ri with beatIn := none } }
  if s.ct.nodeState = .config then s
  else
    let s := { s with ri := { s.ri with healMark := s.ri.healMark || b.heal } }
    if isMaster s then foreignBeat s
    else placeAndTake tS tin lineFree b (if found then becomePassive s else s)

/-- BEAT_ARRIVAL (R4, R69): start delimiter at `sd`, end delimiter at `now`. During a node reset: log entry 9. -/
def execBeatArrival (sd now : Time) (tin : Byte) (lineFree : Time) (h : FrameHead) (b : Beat) (s : State) : Outcome :=
  .next
    (deliver sd.toNat h toAll (fun s => if s.wc.resetting then s else arriveBeat sd tin lineFree b s) (advance now s))

/-! ### Commands (R2, R10, R11, R17) -/

/-- R2. -/
def ownSetCycle (p : SetCycleP) (s : State) : State × Reply :=
  match periodOf p.code with
  | none => refuse s .badParam
  | some period =>
    let given : Phases := ⟨p.pIn.toNat, p.pCo.toNat, p.pIs.toNat⟩
    if phasesOk period given = false then refuse s .badParam
    else if !isMaster s && decide (period ≠ s.ct.period) then refuse s .notMaster
    else if isMaster s && decide (period ≠ s.ct.period ∧ (s.ag.lineState = .running ∨ s.ag.lineState = .stopping)) then
      refuse s .wrongState
    else
      done { s with ct := { s.ct with
        pendingCycle := some { period := period, pIn := given.pIn, pCo := given.pCo, pIs := given.pIs } } }

/-- R17. -/
def ownSetHoldover (p : SetHoldoverP) (s : State) : State × Reply :=
  if inRange 1 8 p.limit.toNat then
    done { s with ct := { s.ct with pendingHoldover := some (p.lead.toNat, p.limit.toNat) } }
  else refuse s .badParam

/-- R10: the line is tripped for SET_LINE_SPEED. -/
def lineTripped (s : State) : Bool :=
  s.tc.lineTerm.isStop
    || decide (s.ag.lineState = .stopping ∨ s.ag.lineState = .halted ∨ s.ag.lineState = .torqueOff)

/-- R10. -/
def ownSetLineSpeed (demand : Word) (s : State) : State × Reply :=
  if !isMaster s then refuse s .notMaster
  else if lineTripped s then refuse s .tripped
  else
    let (d, cl) := clamped (-(s.ag.vRev : Int)) (s.ag.vMax : Int) (int32 demand)
    doneClamped { s with ag := { s.ag with demand := d } } cl (leSigned 4 d)

/-- R11. -/
def ownSetLineLimits (p : SetLineLimitsP) (s : State) : State × Reply :=
  if 4194304 < p.vMax.toNat ∨ 4194304 < p.vRev.toNat ∨ p.aUp = 0 ∨ p.aDown = 0 ∨ p.aStop = 0 then refuse s .badParam
  else
    let (d, cl) := clamped (-(p.vRev.toNat : Int)) (p.vMax.toNat : Int) s.ag.demand
    doneClamped
      { s with ag := { s.ag with demand := d, vMax := p.vMax.toNat, vRev := p.vRev.toNat, aUp := p.aUp.toNat,
                                 aDown := p.aDown.toNat, aStop := p.aStop.toNat } } cl []

def execSetCycle (cell : Fin 16) (tag : Half) (p : SetCycleP) (s : State) : Outcome :=
  .next (takeAs cell tag (.setCycle p) (ownSetCycle p) s)

def execSetHoldover (cell : Fin 16) (tag : Half) (p : SetHoldoverP) (s : State) : Outcome :=
  .next (takeAs cell tag (.setHoldover p) (ownSetHoldover p) s)

def execSetLineSpeed (cell : Fin 16) (tag : Half) (demand : Word) (s : State) : Outcome :=
  .next (takeAs cell tag (.setLineSpeed demand) (ownSetLineSpeed demand) s)

def execSetLineLimits (cell : Fin 16) (tag : Half) (p : SetLineLimitsP) (s : State) : Outcome :=
  .next (takeAs cell tag (.setLineLimits p) (ownSetLineLimits p) s)

end Sys2Proof.Machine
end

