-- ==== Sys2Proof/Machine/Port.lean ====
section
/-! DEFINITION. The Memory Port (R185, R186): the levels of the six requesters, a grant with the transaction it carries, bus
errors, and SET_MEMORY_ORDER. -/

namespace Sys2Proof.Machine

/-- What a requester presents (R185). -/
inductive ReqLevel | quiet | low | high
deriving DecidableEq, Repr

/-! ### Cameras -/

/-- The buffer of a capture frame is the FILLING buffer of its pool. -/
def captureFilling (s : State) (u : Fin 2) (f : CapFrame) : Bool :=
  match s.pm.pools[capturePool u].filling with
  | none => false
  | some b => decide (f.target = .buffer b)

/-- The oldest bytes of the FIFO can be written: they have addresses, in the FILLING buffer (R136). -/
def cameraWritable (s : State) (u : Fin 2) : Bool :=
  match s.cu[u].fifo with
  | [] => false
  | b :: _ => b.addr.isSome && (frameById s.cu[u] b.frame).any (captureFilling s u)

/-- A read that reports the writes is owed for a frame with nothing left to write, and the oldest bytes await no
address (log entry 41). -/
def cameraFlush (s : State) (u : Fin 2) : Bool :=
  let x := s.cu[u]
  (x.fifo.head?).all (fun b => b.addr.isSome)
    && x.frames.any fun f => f.whole && captureFilling s u f && x.fifo.all (fun b => decide (b.frame ≠ f.id))
        && unasked u.val f.id x.flight

/-- The FIFO holds a byte of a frame whose rows are all resolved. -/
def cameraTail (s : State) (u : Fin 2) : Bool :=
  s.cu[u].fifo.any fun b => (frameById s.cu[u] b.frame).any CapFrame.whole

/-- R185 for a camera. DESIGN CHOICE (log entry 66): the bytes of the FIFO are compared with 64 times a mark, so that a unit
begun and not full does not count toward it. DESIGN CHOICE (log entry 101): the reporting read of R186 presents low while the fill
is below the high mark, with an empty FIFO too, where R185 gives no request. -/
def cameraLevel (s : State) (u : Fin 2) : ReqLevel :=
  let n := s.cu[u].fifo.length
  if cameraWritable s u || cameraFlush s u then
    if 64 * s.mp.camHigh ≤ n then .high
    else if decide (64 * s.mp.camLow ≤ n) || cameraTail s u || cameraFlush s u then .low
    else .quiet
  else .quiet

/-- The oldest bytes that one write can carry: one frame, consecutive addresses, one 256-byte block (R186). -/
def writeRun (unit frame : Nat) (a : Addr) : Nat → List FifoByte → List Byte
  | 0, _ => []
  | _, [] => []
  | n + 1, b :: bs =>
    if b.unit = unit ∧ b.frame = frame ∧ b.addr = some a then
      b.byte :: (if (a.toNat + 1) % Config.transactionSize = 0 then [] else writeRun unit frame (a + 1) n bs)
    else []

/-- A camera's transaction: a write, or the read whose return will report its writes (R186; log entry 41). -/
def grantCamera (u : Fin 2) (s : State) : State :=
  if cameraWritable s u then
    match s.cu[u].fifo with
    | [] => s
    | b :: rest =>
      let a := b.addr.getD 0
      let bs := writeRun b.unit b.frame a Config.transactionSize (b :: rest)
      modStream u (fun x => { x with
        fifo := x.fifo.drop bs.length
        flight := x.flight ++ [{ unit := b.unit, frame := b.frame, addr := a, bytes := bs }] }) s
  else modStream u (fun x => { x with flight := askReport x.flight }) s

/-! ### Ring-in -/

/-- The receive frame that a byte belongs to. -/
def recvFrameOf (s : State) (b : FifoByte) : Option (Fin 4 × RecvFrame) :=
  (finOf 4 b.unit).bind fun i =>
    (s.ve.bindings[i].frames.find? fun f => decide (f.id = b.frame)).map fun f => (i, f)

def recvFilling (s : State) (x : Fin 4 × RecvFrame) : Bool :=
  match s.pm.pools[recvPool x.1].filling with
  | none => false
  | some b => decide (x.2.target = .buffer b)

def ringInWritable (s : State) : Bool :=
  match s.ve.ringIn with
  | [] => false
  | b :: _ => b.addr.isSome && (recvFrameOf s b).any (recvFilling s)

/-- A read that reports the writes is owed for a closed receive frame with nothing left to write, and the oldest bytes await no
address (log entry 41). -/
def ringInFlush (s : State) : Bool :=
  (s.ve.ringIn.head?).all (fun b => b.addr.isSome)
    && (indices 4).any fun i => s.ve.bindings[i].frames.any fun f =>
        f.closed && recvFilling s (i, f) && s.ve.ringIn.all (fun b => decide (¬ (b.unit = i.val ∧ b.frame = f.id)))
          && unasked i.val f.id s.ve.flight

/-- R185 for ring-in. DESIGN CHOICE (log entry 101): the reporting read of R186 presents high, ring-in's one level, with an empty
buffer too, where R185 gives no request. -/
def ringInLevel (s : State) : ReqLevel :=
  if ringInWritable s || ringInFlush s then
    if decide (1024 ≤ s.ve.ringIn.length) || ringInFlush s
        || s.ve.ringIn.any (fun b => (recvFrameOf s b).any fun x => x.2.closed) then .high
    else .quiet
  else .quiet

/-- Ring-in's transaction: a write, or the read whose return will report its writes (R186; log entry 41). -/
def grantRingIn (s : State) : State :=
  if ringInWritable s then
    match s.ve.ringIn with
    | [] => s
    | b :: rest =>
      let a := b.addr.getD 0
      let bs := writeRun b.unit b.frame a Config.transactionSize (b :: rest)
      { s with ve := { s.ve with ringIn := s.ve.ringIn.drop bs.length,
                                 flight := s.ve.flight ++ [{ unit := b.unit, frame := b.frame, addr := a, bytes := bs }] } }
  else { s with ve := { s.ve with flight := askReport s.ve.flight } }

/-! ### Screen -/

/-- A palette load with reads still to issue. DESIGN CHOICE (log entry 98): all reads of palette 0's load go before those of
palette 1's, where R170 gives no order of two loads. -/
def paletteToRead (s : State) : Option (Fin 2) :=
  (indices 2).find? fun i => decide (s.sc.loads[i].state = .reading ∧ s.sc.loads[i].issued < 768)

/-- The level that pane fetching presents (R173, R185). DESIGN CHOICE (log entry 66): the fill in bytes is compared with 64 times
a mark, so that a unit begun counts as one. -/
def paneLevel (s : State) : ReqLevel :=
  if (nextRead s.sc).isSome then
    if fifoFill s.sc ≤ 64 * s.mp.scrUrgent then .high
    else if fifoFill s.sc ≤ 64 * s.mp.scrLow then .low
    else .quiet
  else .quiet

def screenLevel (s : State) : ReqLevel :=
  if paneLevel s = .quiet ∧ (paletteToRead s).isSome = true then .low else paneLevel s

/-- A palette read of up to 256 bytes (R170, R186). DESIGN CHOICE (log entry 97): it reaches up to the next 256-byte boundary or
the load's end, where the rules leave the split of the 768 bytes open. -/
def issuePaletteRead (l : PaletteLoad) : PaletteLoad :=
  { l with issued := l.issued + min (768 - l.issued) (Config.transactionSize - (l.address.toNat + l.issued) % Config.transactionSize) }

/-- A pane read is issued. -/
def issuePaneRead (s : State) : State :=
  match nextRead s.sc with
  | none => s
  | some (line, skip, run) =>
    { s with sc := { s.sc with reads := s.sc.reads ++ [run], fetchLine := line, fetchAt := skip + run.length } }

def grantScreen (s : State) : State :=
  if paneLevel s = .quiet then
    match paletteToRead s with
    | none => s
    | some i => modLoad i issuePaletteRead s
  else issuePaneRead s

/-! ### Window and ring-out -/

def windowLevel (s : State) : ReqLevel :=
  if s.wc.queue.any (fun t => t.publish) then .high else if s.wc.queue.isEmpty then .quiet else .low

/-- The oldest window transaction goes out. -/
def grantWindow (s : State) : State :=
  match s.wc.queue with
  | [] => s
  | t :: rest => store t.addr t.bytes { s with wc := { s.wc with queue := rest } }

/-- A view whose prepared segment still needs source bytes (log entry 40). -/
def viewToRead (s : State) : Option (Fin 4) :=
  (indices 4).find? fun v => (s.ve.views[v].prepared).any fun p => !p.toRead.isEmpty

def ringOutLevel (s : State) : ReqLevel := if (viewToRead s).isSome then .low else .quiet

/-- One source read is issued. -/
def issueSourceRead (p : Prepared) : Prepared :=
  { p with toRead := p.toRead.drop 1, issued := p.issued ++ p.toRead.take 1 }

def grantRingOut (s : State) : State :=
  match viewToRead s with
  | none => s
  | some v => modView v (fun x => { x with prepared := x.prepared.map issueSourceRead }) s

/-! ### The grant (R186) -/

/-- What each requester presents. -/
def levelOf (s : State) : Requester → ReqLevel
  | .screen => screenLevel s
  | .camera0 => cameraLevel s 0
  | .camera1 => cameraLevel s 1
  | .ringIn => ringInLevel s
  | .window => windowLevel s
  | .ringOut => ringOutLevel s

/-- R186: the fixed order. -/
def grantOrder (camerasFirst : Bool) : List Requester :=
  if camerasFirst then [.camera0, .camera1, .screen, .ringIn, .window, .ringOut]
  else [.screen, .camera0, .camera1, .ringIn, .window, .ringOut]

/-- R186: every high request before every low one, and within a level the first in order. -/
def pickRequester (s : State) : Option Requester :=
  let order := grantOrder s.mp.camerasFirst
  match order.find? fun r => decide (levelOf s r = .high) with
  | some r => some r
  | none => order.find? fun r => decide (levelOf s r = .low)

/-- The count of grants of a requester. -/
def countGrant (r : Requester) (m : MemPort) : MemPort :=
  match r with
  | .screen => { m with screen := m.screen + 1 }
  | .camera0 => { m with camera0 := m.camera0 + 1 }
  | .camera1 => { m with camera1 := m.camera1 + 1 }
  | .ringIn => { m with ringIn := m.ringIn + 1 }
  | .window => { m with window := m.window + 1 }
  | .ringOut => { m with ringOut := m.ringOut + 1 }

/-- The transaction of a requester. -/
def grantTo (r : Requester) (s : State) : State :=
  match r with
  | .screen => grantScreen s
  | .camera0 => grantCamera 0 s
  | .camera1 => grantCamera 1 s
  | .ringIn => grantRingIn s
  | .window => grantWindow s
  | .ringOut => grantRingOut s

/-- GRANT (R186). -/
def execGrant (s : State) : Outcome :=
  .next <|
    match pickRequester s with
    | none => s
    | some r => grantTo r { s with mp := countGrant r s.mp }

/-! ### Bus errors (R186) -/

/-- R123: a write of camera data ended in a bus error: its bytes are dropped. -/
def cameraError (u : Fin 2) (i : Nat) (s : State) : State :=
  match s.cu[u].flight[i]? with
  | none => s
  | some w =>
    modStream u (fun x =>
      { modFrame w.frame (fun f => { f with flags := { f.flags with overrun := true } }) x with
        flight := x.flight.eraseIdx i }) s

/-- R158: a write of ring-in data ended in a bus error: its bytes are not written. -/
def ringInError (i : Nat) (s : State) : State :=
  match s.ve.flight[i]? with
  | none => s
  | some w =>
    let t := { s with ve := { s.ve with flight := s.ve.flight.eraseIdx i } }
    match finOf 4 w.unit with
    | none => t
    | some b => modBinding b (modRecv w.frame fun f => { f with flags := { f.flags with overrun := true } }) t

/-- BUS_ERROR (R186; log entry 32). -/
def execBusError (what : BusErr) (s : State) : Outcome :=
  .next <|
    match what with
    | .camera u write => cameraError u write s
    | .ringIn write => ringInError write s
    | .ringOut view read => sourceReadError view read s
    | .screenPane => paneReadError s
    | .screenPalette palette => paletteReadError palette s
    | .window => windowFault s

/-! ### SET_MEMORY_ORDER (R185) -/

/-- R185 (log entry 42). -/
def ownSetMemoryOrder (p : SetMemoryOrderP) (s : State) : State × Reply :=
  match boolOf p.camerasFirst with
  | none => refuse s .badParam
  | some first =>
    if ¬ inRange 1 128 p.camLow.toNat ∨ ¬ inRange 1 128 p.camHigh.toNat ∨ 63 < p.scrLow.toNat ∨ 63 < p.scrUrgent.toNat
        ∨ p.camHigh.toNat < p.camLow.toNat ∨ p.scrLow.toNat < p.scrUrgent.toNat then refuse s .badParam
    else
      done { s with mp := { s.mp with camerasFirst := first, camLow := p.camLow.toNat, camHigh := p.camHigh.toNat,
                                      scrLow := p.scrLow.toNat, scrUrgent := p.scrUrgent.toNat } }

def execSetMemoryOrder (cell : Fin 16) (tag : Half) (p : SetMemoryOrderP) (s : State) : Outcome :=
  .next (takeAs cell tag (.setMemoryOrder p) (ownSetMemoryOrder p) s)

end Sys2Proof.Machine
end

