-- ==== Sys2Proof/Machine/Transmit.lean ====
section
/-! DEFINITION. The transmitters of the Ring Interface (R66 to R68, R70, R72): their choices, the launch of each kind of frame,
and the frames that must wait. -/

namespace Sys2Proof.Machine

/-- A fibre is free: no frame on it, and the gap of 8 idle symbols sent (R66). -/
def txFree (tx : Option Sending) (now : Nat) : Bool :=
  match tx with
  | none => true
  | some x => decide (x.endsAt + Config.frameGap ≤ now)

/-- A forwarded frame leaves through the primary transmitter: a primary copy always, a secondary one outside THROUGH
(R62, R81; log entry 12). -/
def goesPrimary (m : RingMode) (c : Copy) : Bool := !c.secondary || decide (m ≠ .through)

/-- The port of a link frame leaves through the primary transmitter (R62). -/
def portPrimary (m : RingMode) (p : Port) : Bool :=
  match m with
  | .through | .wrapA => decide (p = portB)
  | .wrapB => decide (p = portA)
  | .alone => false

/-- An own frame leaves through the primary transmitter (R62, R66). -/
def ownPrimary (m : RingMode) : OwnFrame → Bool
  | .beat _ => true
  | .probe p _ => portPrimary m p
  | .reply p _ _ _ => portPrimary m p

/-- An own link frame of a port whose fibre carries it outside the primary transmitter (R62, R68). -/
def ownOnFibre (m : RingMode) (q : Port) : OwnFrame → Bool
  | .beat _ => false
  | .probe p _ => decide (p = q) && !portPrimary m p
  | .reply p _ _ _ => decide (p = q) && !portPrimary m p

/-- The repeat delay of a copy has run out (R64). -/
def delayOut (now : Nat) (c : Copy) : Bool := decide (c.sd + Config.repeatDelay ≤ now)

/-- A waiting place of the forwarding store that `route` picks. -/
def waitingPlace (route : Copy → Bool) (s : State) : Option Copy :=
  (s.ri.store.find? fun p => p.sentAt.isNone && route p.copy).map (·.copy)

/-- A copy whose repeat delay has run out, oldest first. -/
def readyCopy (route : Copy → Bool) (s : State) : Option Copy :=
  s.ri.delayed.find? fun c => route c && delayOut (nowOf s) c

/-- What the primary transmitter may choose (R66). -/
inductive Candidate
  | burst (b : QBurst)
  | stored (c : Copy)
  | delayed (c : Copy)
  | own (f : OwnFrame)
  | view (v : Fin 4)

/-- R66: the ready candidate of the highest class. -/
def choose (s : State) : Option Candidate :=
  match s.tc.queue with
  | b :: _ => some (.burst b)
  | [] =>
    match waitingPlace (goesPrimary s.ri.mode) s with
    | some c => some (.stored c)
    | none =>
      match readyCopy (goesPrimary s.ri.mode) s with
      | some c => some (.delayed c)
      | none =>
        match s.ri.own.find? (ownPrimary s.ri.mode) with
        | some f => some (.own f)
        | none => if (placesInUse s).isEmpty then (offeredView s).map .view else none

/-! ### Launching -/

/-- The frame of a copy as it leaves: a BEAT carries its transit to the next primary input (R72). -/
def leavingFrame (s : State) (c : Copy) : Frame :=
  match c.frame.payload with
  | .beat b =>
    let turn := if s.ri.mode = .wrapB then Config.wrapTurn else 0
    { c.frame with payload := .beat { b with transit := c.transit + BitVec.ofNat 32 (nowOf s - c.sd + turn) } }
  | _ => c.frame

/-- R71: the copy is a BEAT of another source from the primary input, whose slot for this node did not come stamped. -/
def owesSlot (s : State) (c : Copy) : Bool :=
  match c.frame.payload with
  | .beat b => !c.secondary && !stampedIn b.cycle b.slots[own s]
  | _ => false

/-- A copy on its way out, with the end-delimiter rule and the length of R64. -/
def sendingCopy (s : State) (c : Copy) : Sending :=
  let t := match c.damaged with
    | some n => bytesTime n
    | none => frameTime c.frame
  { frame := leavingFrame s c, repeated := some (c.port, c.sd), damaged := c.damaged.isSome, startsAt := nowOf s,
    endsAt := nowOf s + t, slotOwed := owesSlot s c }

/-- An own frame on its way out. -/
def sendingOwn (s : State) (f : Frame) : Sending :=
  { frame := f, repeated := none, damaged := false, startsAt := nowOf s, endsAt := nowOf s + frameTime f }

/-- The copy leaves the place it waited in, or the primary input (R67). DESIGN CHOICE (log entry 50): "frames repeated" counts
here, as the copy's start delimiter goes out, where R84 counts a frame sent and closed. -/
def releaseCopy (c : Copy) (endsAt : Nat) (s : State) : State :=
  { s with ri := { s.ri with
      delayed := s.ri.delayed.erase c
      store := s.ri.store.map fun p => if p.copy = c ∧ p.sentAt = none then { p with sentAt := some endsAt } else p
      repeated := s.ri.repeated + 1 } }

def setPrimary (x : Sending) (s : State) : State := { s with ri := { s.ri with primaryTx := some x } }

def setFibre (p : Port) (x : Sending) (s : State) : State :=
  { s with ri := { s.ri with linkTx := s.ri.linkTx.set p (some x) } }

/-- The slots of a BEAT at launch (R70). -/
def launchSlots (s : State) (n : Word) : Vector Slot 32 :=
  Vector.ofFn fun a => if a = own s then ownSlot s n else { mark := (n + 128).setWidth 8 }

/-- The BEAT of the master as launched now (R70). -/
def beatFrame (s : State) (q : QueuedBeat) : Frame :=
  mkFrame 0 (byte (own s).val) 63
    (.beat { cycle := q.cycle, theta := q.theta, v := word q.v, lineState := q.lineState, level := q.level,
             period := q.period, heal := q.heal, lateness := word ((nowOf s : Int) - q.start), transit := 0,
             slots := launchSlots s q.cycle })

/-- An own frame starts out: its content, and what the RI records (R70, R78, R79, R82, R84). -/
def launchOwn (f : OwnFrame) (s : State) : Frame × State :=
  let s := { s with ri := { s.ri with own := s.ri.own.erase f } }
  let n := s.ri.ownSent
  match f with
  | .beat q =>
    (beatFrame s q,
     { s with ri := { s.ri with healMark := s.ri.healMark || q.heal, ownSent := { n with beat := n.beat + 1 } } })
  | .probe p k =>
    (mkFrame 0 (byte (own s).val) 63 (.probe k),
     modPort p (fun x => { x with outstanding := some (k, nowOf s) })
       { s with ri := { s.ri with ownSent := { n with probe := n.probe + 1 } } })
  | .reply _ dest k arrived =>
    (mkFrame 0 (byte (own s).val) dest (.probeReply k (BitVec.ofNat 32 (nowOf s - arrived))),
     { s with ri := { s.ri with ownSent := { n with reply := n.reply + 1 } } })

/-- A VIEW segment starts out (R153). -/
def launchView (v : Fin 4) (s : State) : State :=
  let x := s.ve.views[v]
  match x.current, x.prepared.bind (·.ready) with
  | some f, some bs =>
    let n := s.ri.ownSent
    let s := setPrimary (sendingOwn s (segmentFrame s v x f bs)) s
    sendSegment v f bs.length { s with ri := { s.ri with ownSent := { n with view := n.view + 1 } } }
  | _, _ => s

/-- The chosen candidate starts out through the primary transmitter. -/
def launch (c : Candidate) (s : State) : State :=
  match c with
  | .burst b =>
    let (f, s) := sendBurst b s
    let n := s.ri.ownSent
    setPrimary (sendingOwn s f) { s with ri := { s.ri with ownSent := { n with trip := n.trip + 1 } } }
  | .stored c | .delayed c =>
    let x := sendingCopy s c
    setPrimary x (releaseCopy c x.endsAt s)
  | .own f =>
    let (g, s) := launchOwn f s
    setPrimary (sendingOwn s g) s
  | .view v => launchView v s

/-- TRANSMITTER_DECISION (R66). -/
def execTransmitterDecision (now : Time) (s : State) : Outcome :=
  let s := purgeStore (advance now s)
  .next <|
    if txFree s.ri.primaryTx (nowOf s) then
      match choose s with
      | none => s
      | some c => launch c s
    else s

/-! ### The secondary transmitter and link-only fibres (R68) -/

/-- R68: the repeated secondary frame to send, where the fibre carries them (log entry 20). -/
def secondaryCandidate (port : Port) (s : State) : Option Copy :=
  if s.ri.mode = .through ∧ port = portA then
    match waitingPlace (fun c => c.secondary) s with
    | some c => some c
    | none => readyCopy (fun c => c.secondary) s
  else none

/-- SECONDARY_TRANSMIT (R68). -/
def execSecondaryTransmit (port : Port) (now : Time) (s : State) : Outcome :=
  let s := purgeStore (advance now s)
  .next <|
    if txFree s.ri.linkTx[port] (nowOf s) then
      match secondaryCandidate port s with
      | some c =>
        let x := sendingCopy s c
        setFibre port x (releaseCopy c x.endsAt s)
      | none =>
        match s.ri.own.find? (ownOnFibre s.ri.mode port) with
        | none => s
        | some f =>
          let (g, s) := launchOwn f s
          setFibre port (sendingOwn s g) s
    else s

/-! ### VIEW frames delivered -/

/-- SEGMENT_DELIVERY (R69, R156). During a node reset: log entry 9. -/
def execSegmentDelivery (d : Delivered Segment) (s : State) : Outcome :=
  .next <|
    deliver d.sd.toNat d.toFrameHead (toNode s) (fun s => if s.wc.resetting then s else deliverSegment d.body s) s

/-! ### Frames that must wait (R67) -/

/-- R67: places free. -/
def freePlaces (s : State) : Nat := Config.storePlaces - (placesInUse s).length

def isView (f : Frame) : Bool :=
  match f.payload with
  | .view _ => true
  | .beat _ | .trip _ | .probe _ | .probeReply _ _ | .other _ _ => false

/-- R67: a frame that must wait is admitted or discarded. -/
def admitToStore (c : Copy) (s : State) : State :=
  let s := { s with ri := { s.ri with delayed := s.ri.delayed.erase c } }
  if isView c.frame then
    if 2 ≤ freePlaces s then { s with ri := { s.ri with store := s.ri.store ++ [{ copy := c, sentAt := none }] } }
    else { s with ri := { s.ri with viewDiscards := s.ri.viewDiscards + 1 } }
  else if 1 ≤ freePlaces s then { s with ri := { s.ri with store := s.ri.store ++ [{ copy := c, sentAt := none }] } }
  else { s with ri := { s.ri with storeDiscards := s.ri.storeDiscards + 1 } }

/-- The transmitter is busy, or an older forwarded frame or a higher class goes first (R66, R67). -/
def mustWait (secondary : Bool) (s : State) : Bool :=
  if secondary then
    !txFree s.ri.linkTx[portA] (nowOf s) || (waitingPlace (fun c => c.secondary) s).isSome
  else
    !txFree s.ri.primaryTx (nowOf s) || !s.tc.queue.isEmpty || (waitingPlace (goesPrimary s.ri.mode) s).isSome

/-- REPEAT_DELAY_EXPIRY (R67). -/
def execRepeatDelayExpiry (secondary : Bool) (now : Time) (s : State) : Outcome :=
  let s := purgeStore (advance now s)
  .next <|
    match readyCopy (fun c => c.secondary == secondary) s with
    | none => s
    | some c => if mustWait secondary s then admitToStore c s else s

end Sys2Proof.Machine
end

