-- ==== Sys2Proof/Machine/Board.lean ====
section
/-! DEFINITION. The command board (R178 to R180): which block owns a command, and the scan of the 16 cells. -/

namespace Sys2Proof.Machine

/-- R180: the owner's action on a command taken from a cell; a code that names no command reaches no owner. -/
def ownerOf (cmd : BoardCmd) (cell : Fin 16) : State → State × Reply :=
  match cmd with
  | .setCycle p => ownSetCycle p
  | .setHoldover p => ownSetHoldover p
  | .setLineSpeed d => ownSetLineSpeed d
  | .setLineLimits p => ownSetLineLimits p
  | .setSection p => ownSetSection p
  | .assignChannel p => ownAssignChannel p
  | .torque p => ownTorque p
  | .engage x => ownEngage x cell
  | .disengage x => ownDisengage x cell
  | .jog p => ownJog p
  | .trim p => ownTrim p
  | .clearChannelFault c => ownClearChannelFault c
  | .forgetNode a => ownForgetNode a
  | .ringHeal => ownRingHeal cell
  | .setTripInput p => ownSetTripInput p
  | .raiseTrip p => ownRaiseTrip p
  | .releaseTrip i => ownReleaseTrip i
  | .clearTrip p => ownClearTrip p
  | .lineRearm => ownLineRearm
  | .setStream p => ownSetStream p
  | .startStream x => ownStartStream x
  | .stopStream x => ownStopStream x
  | .setPool p descs => ownSetPool p descs
  | .setView p => ownSetView p
  | .startView x => ownStartView x
  | .stopView x => ownStopView x
  | .setViewAllowance p => ownSetViewAllowance p
  | .setReceive p => ownSetReceive p
  | .setScreen p => ownSetScreen p
  | .screenEnable x => ownScreenEnable x
  | .setPane p => ownSetPane p
  | .flipPane x => ownFlipPane x cell
  | .loadPalette p => ownLoadPalette p cell
  | .setBacklight p => ownSetBacklight p
  | .setMemoryOrder p => ownSetMemoryOrder p
  | .unknown _ => fun s => refuse s .unknown

/-- The cell reads POSTED and its record is free (R179). -/
def takes (s : State) (c : Fin 16) (x : CellImage) : Bool := decide (x.state = 1) && (s.wc.records[c]).isNone

/-- The command of a cell image. -/
def imageCmd (x : CellImage) : BoardCmd := decodeCell x.code x.params x.descs

/-- R179, steps 1 to 3 for one cell of the board read. -/
def takeCell (c : Fin 16) (x : CellImage) (s : State) : State :=
  if takes s c x then takeAs c x.tag (imageCmd x) (ownerOf (imageCmd x) c) s else s

/-- R179: the pool and buffer count whose descriptors the scan reads for a cell, where it has not begun to. -/
def descriptorsDue (s : State) (c : Fin 16) (x : CellImage) : Option (Fin 6 × Nat) :=
  match imageCmd x with
  | .setPool p _ =>
    if takes s c x && inRange 2 8 p.count.toNat && !s.wc.descRead.contains c then
      (finOf 6 p.pool.toNat).map fun i => (i, p.count.toNat)
    else none
  | _ => none

/-- The cells of the board read in index order. -/
def boardCells (cells : List CellImage) : List (Fin 16 × CellImage) := (indices 16).zip cells

/-- The cells whose descriptors are still to be read. -/
def cellsDue (cells : List CellImage) (s : State) : List (Fin 16 × Fin 6 × Nat) :=
  (boardCells cells).filterMap fun w => (descriptorsDue s w.1 w.2).map fun d => (w.1, d)

/-- The reads of a pool's first `n` descriptors, as reads of the scan (R179). -/
def descriptorReads (s : State) (p : Fin 6) (n : Nat) : List WinItem :=
  (List.range n).map fun b => { group := .scan, publish := false, addr := windowAddr s (descOffset p b), bytes := [] }

/-- The descriptor reads of the scan are issued. -/
def readDescriptors (due : List (Fin 16 × Fin 6 × Nat)) (s : State) : State :=
  issueItems (due.flatMap fun d => descriptorReads s d.2.1 d.2.2)
    { s with wc := { s.wc with descRead := s.wc.descRead ++ due.map fun d => d.1 } }

/-- R179: the scan is carried out as one event. -/
def scanBoard (cells : List CellImage) (s : State) : State :=
  (boardCells cells).foldl (fun s w => takeCell w.1 w.2 s)
    { s with wc := { s.wc with scanning := false, descRead := [] } }

/-- BOARD_SCAN (R179): every read of the scan issued so far has returned. Where the board read shows descriptors to read, the
scan goes on with those reads; else it is carried out (log entry 57). -/
def execBoardScan (cells : List CellImage) (s : State) : Outcome :=
  .next <|
    if windowOn s && s.wc.scanning && landed s .scan then
      match cellsDue cells s with
      | [] => scanBoard cells s
      | d :: ds => readDescriptors (d :: ds) s
    else s

/-- UNKNOWN (R180). -/
def execUnknown (cell : Fin 16) (tag : Half) (code : Byte) (s : State) : Outcome :=
  .next (takeAs cell tag (.unknown code) (fun s => refuse s .unknown) s)

end Sys2Proof.Machine
end

