-- ==== Sys2Proof/Machine/Resets.lean ====
section
/-! DEFINITION. Power-on reset, node reset and the register writes that start and run the node (R175, R176, R181). -/

namespace Sys2Proof.Machine

/-- The data writes already granted reach host memory (R186; log entry 32). -/
def landGranted (s : State) : State := land (s.cu[0].flight ++ s.cu[1].flight ++ s.ve.flight) s

/-- POWER_ON_RESET: every field at its power-on value, the straps latched anew (R175). The commands waiting and host memory are
not the part's own, and the data of pane reads still on their way will be discarded (DEDUCED, log entry 37).
-/
def execPowerOnReset (addr : NodeAddr) (master : Bool) (s : State) : Outcome :=
  .next { State.powerOn addr master with
    pending := s.pending, sc := { reads := (discardReads s.sc).reads }, mem := (landGranted s).mem }

/-! ### Node reset (R176) -/

def isPassive (s : State) : Bool := decide (s.ct.nodeState = .passive)

/-- The Cycle Timer after node reset: local time goes on, PASSIVE stays (R1, R13, R14, R17). -/
def resetCycle (s : State) : CycleTimer :=
  { localTime := s.ct.localTime, nodeState := if isPassive s then .passive else .config }

/-- The end of the bit of the telegram that is on the line now; a bit takes 20 ns (R44). -/
def bitEnd (s : State) : Int := s.dlc.begun + 20 * ((((nowOf s : Int) - s.dlc.begun).toNat / 20 + 1 : Nat) : Int)

/-- The Drive Line Controller after node reset: a telegram being sent ends with the bit in progress, and the line's idle time
is kept (R44). -/
def resetDrive (s : State) : DriveLine :=
  if driverEnabled s then
    { telegram := s.dlc.telegram, begun := s.dlc.begun, driveUntil := bitEnd s, lineFree := bitEnd s + 400 }
  else { driveUntil := s.dlc.driveUntil, lineFree := s.dlc.lineFree }

/-- A ring port after node reset (R61, R78, R80, R84). -/
def resetPort (x : PortRec) : PortRec :=
  { state := x.state, upSince := x.upSince, idleRun := x.idleRun, delay := x.delay, probeNumber := x.probeNumber }

/-- The Ring Interface after node reset: the repeater runs on (R66, R67, R73, R75, R76, R81 to R84). -/
def resetRing (r : Ring) : Ring :=
  { ports := mapV (fun _ x => resetPort x) r.ports, mode := r.mode, routedAt := r.routedAt, delayed := r.delayed, store := r.store,
    primaryTx := r.primaryTx, linkTx := r.linkTx, beatIn := r.beatIn, stopped := r.stopped }

/-- The conditions whose causes stay through node reset (R109). -/
def survives (c : Cond) : Bool := decide (c.kind = .duplicate ∨ c.kind = .ringWrap)

/-- The Trip Controller after node reset (R109). -/
def resetTrips (t : TripCtl) : TripCtl := { conds := t.conds.filter survives, heard := t.heard }

/-- Every block at its node-reset values, with the reset in progress (R175, R176, R181; log entry 37). -/
def nodeReset (s : State) : State :=
  { pending := s.pending
    straps := s.straps
    ct := resetCycle s
    ag := { theta := s.ag.theta }
    dlc := resetDrive s
    ri := resetRing s.ri
    tc := resetTrips s.tc
    sc := { reads := (discardReads s.sc).reads }
    wc := { resetting := true, messages := s.wc.messages }
    mem := (landGranted s).mem }

/-- NODE_RESET: RESET written 1; ignored while it reads 1. A change of node state sets no reason that the reset leaves set. -/
def execNodeReset (s : State) : Outcome := .next (if s.wc.resetting then s else nodeReset s)

/-- The reset is at its end: cycle 0 begins, and a PASSIVE node stores its conditions (R1, R109). -/
def endReset (s : State) : State :=
  let s := { s with wc := { s.wc with resetting := false }, ct := { s.ct with n := 0, start := (nowOf s : Int) } }
  if isPassive s then reacting storeConditions s else s

/-- NODE_RESET_END (R176). -/
def execNodeResetEnd (now : Time) (s : State) : Outcome :=
  let s := advance now s
  .next (if s.wc.resetting then endReset s else s)

/-! ### RUN and the register writes without effect (R13, R176, R188) -/

/-- R13, R88: a node in CONFIG starts, and its conditions are stored. -/
def leaveConfig (s : State) : State :=
  if s.ct.nodeState = .config then
    reacting storeConditions (setNodeState (if isMaster s then .online else .joining) s)
  else s

/-- RUN written 1 (log entry 36). -/
def runNode (s : State) : State := resumeWindow (leaveConfig { s with wc := { s.wc with run := true } })

/-- RUN_WRITE (R176); ignored during a node reset. -/
def execRunWrite (s : State) : Outcome := .next (if s.wc.resetting then s else asRegisterWrite runNode s)

/-- A register write that changes nothing may still send a message (R184). -/
def idleRegisterWrite (s : State) : State := if s.wc.resetting then s else asRegisterWrite (fun s => s) s

/-- RUN_CLEAR_WRITE (R176). -/
def execRunClearWrite (s : State) : Outcome := .next (idleRegisterWrite s)

/-- RESET_CLEAR_WRITE (R176). -/
def execResetClearWrite (s : State) : Outcome := .next (idleRegisterWrite s)

/-- REGISTER_WRITE_OTHER (R175, R188): a write to NODECTL or ATTN is a register write of R184. -/
def execRegisterWriteOther (reg : OtherReg) (s : State) : Outcome :=
  match reg with
  | .nodectlUnnamed => .next (idleRegisterWrite s)
  | .attnUnnamed => .next (asRegisterWrite (fun s => s) s)
  | .ident | .winbaseLow | .unmapped => .next s

end Sys2Proof.Machine
end

