-- ==== Sys2Proof/Machine/Dispatch.lean ====
section
/-! DEFINITION. The dispatch: one arm for each row of the table of commands. -/

namespace Sys2Proof.Machine

def exec (i : Instr) (s : State) : Host.Outcome State Fault Refusal :=
  match i with
  -- resets and register writes
  | .powerOnReset addr master => Sys2Proof.Machine.execPowerOnReset addr master s
  | .nodeReset => Sys2Proof.Machine.execNodeReset s
  | .nodeResetEnd now => Sys2Proof.Machine.execNodeResetEnd now s
  | .runWrite => Sys2Proof.Machine.execRunWrite s
  | .runClearWrite => Sys2Proof.Machine.execRunClearWrite s
  | .resetClearWrite => Sys2Proof.Machine.execResetClearWrite s
  | .attentionMaskWrite mask => Sys2Proof.Machine.execAttentionMaskWrite mask s
  | .winbaseWrite value => Sys2Proof.Machine.execWinbaseWrite value s
  | .attnClear ones => Sys2Proof.Machine.execAttnClear ones s
  | .registerWriteOther reg => Sys2Proof.Machine.execRegisterWriteOther reg s
  -- the cycle
  | .cycleStart now => Sys2Proof.Machine.execCycleStart now s
  | .intake now tin => Sys2Proof.Machine.execIntake now tin s
  | .inputDebounce input => Sys2Proof.Machine.execInputDebounce input s
  | .compute now lineFree => Sys2Proof.Machine.execCompute now lineFree s
  | .enterIsolated => Sys2Proof.Machine.execEnterIsolated s
  | .expiry => Sys2Proof.Machine.execExpiry s
  | .receiveTimeout pool => Sys2Proof.Machine.execReceiveTimeout pool s
  | .issue now => Sys2Proof.Machine.execIssue now s
  | .sync now idle => Sys2Proof.Machine.execSync now idle s
  | .quietWindowStart now => Sys2Proof.Machine.execQuietWindowStart now s
  -- frames on the ring
  | .beatArrival sd now tin lineFree h b => Sys2Proof.Machine.execBeatArrival sd now tin lineFree h b s
  | .returningBeat d => Sys2Proof.Machine.execReturningBeat d s
  | .nodeMissing address => Sys2Proof.Machine.execNodeMissing address s
  | .healRunComplete => Sys2Proof.Machine.execHealRunComplete s
  | .trip d => Sys2Proof.Machine.execTrip d s
  | .segmentDelivery d => Sys2Proof.Machine.execSegmentDelivery d s
  | .probe port sd source number => Sys2Proof.Machine.execProbe port sd source number s
  | .probeReply port sd number turnaround => Sys2Proof.Machine.execProbeReply port sd number turnaround s
  | .probeFailed port now => Sys2Proof.Machine.execProbeFailed port now s
  | .damagedFrame input sd rx => Sys2Proof.Machine.execDamagedFrame input sd rx s
  | .primaryRepeat sd f => Sys2Proof.Machine.execPrimaryRepeat sd f s
  | .secondaryPass sd f => Sys2Proof.Machine.execSecondaryPass sd f s
  | .transmitterDecision now => Sys2Proof.Machine.execTransmitterDecision now s
  | .secondaryTransmit port now => Sys2Proof.Machine.execSecondaryTransmit port now s
  | .portDark port now => Sys2Proof.Machine.execPortDark port now s
  | .portSyncing port => Sys2Proof.Machine.execPortSyncing port s
  | .portUp port now => Sys2Proof.Machine.execPortUp port now s
  -- the drive line
  | .setpoint now => Sys2Proof.Machine.execSetpoint now s
  | .replyWindowClose now => Sys2Proof.Machine.execReplyWindowClose now s
  | .replyAbort now => Sys2Proof.Machine.execReplyAbort now s
  | .actual now bytes stopBitError => Sys2Proof.Machine.execActual now bytes stopBitError s
  -- capture
  | .triggerFire u now => Sys2Proof.Machine.execTriggerFire u now s
  | .rowTimeout u now => Sys2Proof.Machine.execRowTimeout u now s
  | .rowBegin u => Sys2Proof.Machine.execRowBegin u s
  | .rowEnd u => Sys2Proof.Machine.execRowEnd u s
  | .webStateChange u => Sys2Proof.Machine.execWebStateChange u s
  -- pools and views
  | .fillTargetChoice pool holds => Sys2Proof.Machine.execFillTargetChoice pool holds s
  | .frameCompletion pool => Sys2Proof.Machine.execFrameCompletion pool s
  | .segmentReady view cells => Sys2Proof.Machine.execSegmentReady view cells s
  -- the screen
  | .screenFrameStart => Sys2Proof.Machine.execScreenFrameStart s
  | .activeEnd => Sys2Proof.Machine.execActiveEnd s
  | .paletteReadDone palette data => Sys2Proof.Machine.execPaletteReadDone palette data s
  -- memory port and window
  | .grant => Sys2Proof.Machine.execGrant s
  | .busError what => Sys2Proof.Machine.execBusError what s
  | .boardScan cells => Sys2Proof.Machine.execBoardScan cells s
  | .finalWrite cell => Sys2Proof.Machine.execFinalWrite cell s
  | .publishPageLanded => Sys2Proof.Machine.execPublishPageLanded s
  | .publishEnd => Sys2Proof.Machine.execPublishEnd s
  | .mirrorRewriteEnd => Sys2Proof.Machine.execMirrorRewriteEnd s
  | .descriptorStateWrite pool buffer => Sys2Proof.Machine.execDescriptorStateWrite pool buffer s
  -- host commands, each taken from one POSTED cell
  | .unknown cell tag code => Sys2Proof.Machine.execUnknown cell tag code s
  | .setCycle cell tag p => Sys2Proof.Machine.execSetCycle cell tag p s
  | .setHoldover cell tag p => Sys2Proof.Machine.execSetHoldover cell tag p s
  | .setLineSpeed cell tag demand => Sys2Proof.Machine.execSetLineSpeed cell tag demand s
  | .setLineLimits cell tag p => Sys2Proof.Machine.execSetLineLimits cell tag p s
  | .setSection cell tag p => Sys2Proof.Machine.execSetSection cell tag p s
  | .assignChannel cell tag p => Sys2Proof.Machine.execAssignChannel cell tag p s
  | .torque cell tag p => Sys2Proof.Machine.execTorque cell tag p s
  | .engage cell tag sect => Sys2Proof.Machine.execEngage cell tag sect s
  | .disengage cell tag sect => Sys2Proof.Machine.execDisengage cell tag sect s
  | .jog cell tag p => Sys2Proof.Machine.execJog cell tag p s
  | .trim cell tag p => Sys2Proof.Machine.execTrim cell tag p s
  | .clearChannelFault cell tag channel => Sys2Proof.Machine.execClearChannelFault cell tag channel s
  | .forgetNode cell tag address => Sys2Proof.Machine.execForgetNode cell tag address s
  | .ringHeal cell tag => Sys2Proof.Machine.execRingHeal cell tag s
  | .setTripInput cell tag p => Sys2Proof.Machine.execSetTripInput cell tag p s
  | .raiseTrip cell tag p => Sys2Proof.Machine.execRaiseTrip cell tag p s
  | .releaseTrip cell tag index => Sys2Proof.Machine.execReleaseTrip cell tag index s
  | .clearTrip cell tag p => Sys2Proof.Machine.execClearTrip cell tag p s
  | .lineRearm cell tag => Sys2Proof.Machine.execLineRearm cell tag s
  | .setStream cell tag p => Sys2Proof.Machine.execSetStream cell tag p s
  | .startStream cell tag stream => Sys2Proof.Machine.execStartStream cell tag stream s
  | .stopStream cell tag stream => Sys2Proof.Machine.execStopStream cell tag stream s
  | .setPool cell tag p descs => Sys2Proof.Machine.execSetPool cell tag p descs s
  | .setView cell tag p => Sys2Proof.Machine.execSetView cell tag p s
  | .startView cell tag view => Sys2Proof.Machine.execStartView cell tag view s
  | .stopView cell tag view => Sys2Proof.Machine.execStopView cell tag view s
  | .setViewAllowance cell tag p => Sys2Proof.Machine.execSetViewAllowance cell tag p s
  | .setReceive cell tag p => Sys2Proof.Machine.execSetReceive cell tag p s
  | .setScreen cell tag p => Sys2Proof.Machine.execSetScreen cell tag p s
  | .screenEnable cell tag on => Sys2Proof.Machine.execScreenEnable cell tag on s
  | .setPane cell tag p => Sys2Proof.Machine.execSetPane cell tag p s
  | .flipPane cell tag pane => Sys2Proof.Machine.execFlipPane cell tag pane s
  | .loadPalette cell tag p => Sys2Proof.Machine.execLoadPalette cell tag p s
  | .setBacklight cell tag p => Sys2Proof.Machine.execSetBacklight cell tag p s
  | .setMemoryOrder cell tag p => Sys2Proof.Machine.execSetMemoryOrder cell tag p s
  -- symbols, pixels and pulses
  | .invalidSymbol port => Sys2Proof.Machine.execInvalidSymbol port s
  | .misroutedFrame port f => Sys2Proof.Machine.execMisroutedFrame port f s
  | .repeatDelayExpiry secondary now => Sys2Proof.Machine.execRepeatDelayExpiry secondary now s
  | .cameraPixel u pixel => Sys2Proof.Machine.execCameraPixel u pixel s
  | .triggerPulseEnd u now => Sys2Proof.Machine.execTriggerPulseEnd u now s
  | .screenPixel => Sys2Proof.Machine.execScreenPixel s
  | .screenReadReturn data => Sys2Proof.Machine.execScreenReadReturn data s
  | .pwmPeriodStart => Sys2Proof.Machine.execPwmPeriodStart s

end Sys2Proof.Machine
end

