-- ==== Sys2Proof/Safety.lean ====
section
/-! DEFINITION. What the statements speak of: the rules that every step keeps, the row that carries a host command, what becomes
of ring frames at a change of mode, as slots pass and as they end damaged, and what a taken cell leaves in the Window
Controller. -/

namespace Sys2Proof.Machine

/-! ### Rules that hold in every state a run reaches -/

/-- Host memory as the part wrote it is in its one form, and the window base has its lowest 13 bits clear (R175). -/
def MemoryKept (s : State) : Prop := Memory.wf s.mem = true ∧ s.wc.winbase.toNat % 8192 = 0

/-- R27: for every section 0 ≤ r < M. -/
def RemaindersBelow (s : State) : Prop := ∀ i : Fin 4, s.gu.sections[i].r < s.gu.sections[i].m

/-- R2: the order and the spacing of three phases in a period. -/
def PhasesOrdered (period : Period) (pIn pCo pIs : Nat) : Prop := pIn + 10 < pCo ∧ pCo + 20 < pIs ∧ pIs < Period.us period

/-- R2, R3: the phases in force, and those pending, are ordered in their period; R10, R11: the stored demand lies within the
line limits; R17: B lies in 1 to 8. -/
def LimitsKept (s : State) : Prop :=
  PhasesOrdered s.ct.period s.ct.pIn s.ct.pCo s.ct.pIs
  ∧ (∀ p, s.ct.pendingCycle = some p → PhasesOrdered p.period p.pIn p.pCo p.pIs)
  ∧ -(s.ag.vRev : Int) ≤ s.ag.demand ∧ s.ag.demand ≤ (s.ag.vMax : Int)
  ∧ (1 ≤ s.ct.limit ∧ s.ct.limit ≤ 8)
  ∧ ∀ x, s.ct.pendingHoldover = some x → 1 ≤ x.2 ∧ x.2 ≤ 8

/-- R87, R94: the trip table holds at most 32 entries with distinct keys, the transmit queue at most 16 bursts with distinct
keys. -/
def TripTableKept (s : State) : Prop :=
  s.tc.table.length ≤ 32 ∧ (s.tc.table.map (·.key)).Nodup
  ∧ s.tc.queue.length ≤ 16 ∧ (s.tc.queue.map (·.key)).Nodup

/-- R41: while the effective level is CUT no section moves and no channel is ACTIVE. -/
def CutStands (s : State) : Prop :=
  effLevel s = .cut →
    (∀ i : Fin 4, s.gu.sections[i].state = .unset ∨ s.gu.sections[i].state = .held)
    ∧ ∀ i : Fin 12, s.gu.channels[i].state ≠ .active

/-- R135: within a pool, a FILLING buffer is the one that the pool record names. -/
def OneFilling (s : State) : Prop :=
  ∀ (p : Fin 6) (b : Fin s.pm.pools[p].buffers.length),
    s.pm.pools[p].buffers[b].state = .filling → s.pm.pools[p].filling = some b.val

/-- R67, R116, R118, R123, R158, R173: what the stores and queues of the part hold at most. -/
def StoresBounded (s : State) : Prop :=
  s.ri.store.length ≤ 4
  ∧ (∀ u : Fin 2, s.cu[u].plan.length ≤ 256 ∧ s.cu[u].outstanding.length ≤ 4 ∧ s.cu[u].fifo.length ≤ 8192)
  ∧ s.ve.ringIn.length ≤ 2048
  ∧ s.sc.fifo.length + (s.sc.reads.map (·.length)).sum ≤ 4096

/-- All of them. -/
def AllKept (s : State) : Prop :=
  MemoryKept s ∧ RemaindersBelow s ∧ LimitsKept s ∧ TripTableKept s ∧ CutStands s ∧ OneFilling s ∧ StoresBounded s

/-- One message interrupt where the interrupt is wanted after a register write (R184; log entry 7). -/
def messagesAfter (w : Window) : Nat := if w.attn &&& w.mask ≠ 0 then w.messages + 1 else w.messages

/-! ### Reset values -/

/-- R20: a section as the resets leave it. -/
def FreshSection (x : Sect) : Prop :=
  x.state = .unset ∧ x.n = 1 ∧ x.m = 1 ∧ x.base = 0 ∧ x.q = 0 ∧ x.phi = 0 ∧ x.r = 0 ∧ x.offT = 0 ∧ x.offA = 0
  ∧ x.trimStep = 0 ∧ x.k = 1 ∧ x.maxStep = 1048576 ∧ x.g = 1 ∧ x.jogLimit = 0 ∧ x.jogSpeed = 0 ∧ x.jogDemand = 0 ∧ x.u = 0
  ∧ x.torqueLimit = 0 ∧ x.mark = false ∧ x.engageCell = none ∧ x.disengageCells = []

/-- R22, R52, R59: a channel as the resets leave it. -/
def FreshChannel (c : Channel) : Prop :=
  c.state = .free ∧ c.sect = none ∧ c.address = none ∧ c.offT = 0 ∧ c.offA = 0 ∧ c.w = 0 ∧ c.c = 0 ∧ c.cRem = 1
  ∧ c.join = false ∧ c.hold = 0 ∧ c.s = 0 ∧ c.s1 = 0 ∧ c.s2 = 0 ∧ c.a = 0 ∧ c.followLimit = 16777216 ∧ c.followCount = 3
  ∧ c.missLimit = 3 ∧ c.cls = .stop ∧ c.flags = ⟨false, false, false⟩ ∧ c.followCtr = 0 ∧ c.noReplyCtr = 0 ∧ c.driveCtr = 0
  ∧ c.hist1 = .notSent ∧ c.hist2 = .notSent ∧ c.late = false ∧ c.ready = false ∧ c.driveFault = false
  ∧ c.torqueReached = false ∧ c.torque = 0 ∧ c.err = 0

/-- R44, R52, R59: the Drive Line Controller as the resets leave it, but for a telegram that a node reset cuts. -/
def FreshDrive (t : State) : Prop :=
  t.dlc.slots = [] ∧ t.dlc.exchange = none ∧ t.dlc.sync = none ∧ t.dlc.lastSync = none
  ∧ t.dlc.sent = 0 ∧ t.dlc.valid = 0 ∧ t.dlc.missing = 0 ∧ t.dlc.invalid = 0 ∧ t.dlc.late = 0 ∧ t.dlc.slips = 0
  ∧ t.dlc.contention = 0

/-- R66, R73, R76, R78, R83, R84: what both resets clear in the Ring Interface. -/
def FreshRing (t : State) : Prop :=
  t.ri.own = [] ∧ (∀ x : NodeAddr, t.ri.present[x] = none ∧ t.ri.copy[x].stamped = false)
  ∧ t.ri.healFlag = false ∧ t.ri.healRun = 0 ∧ t.ri.heal = none
  ∧ t.ri.hopRemovals = 0 ∧ t.ri.viewDiscards = 0 ∧ t.ri.storeDiscards = 0 ∧ t.ri.misrouted = 0 ∧ t.ri.repeated = 0
  ∧ t.ri.ownSent = ⟨0, 0, 0, 0, 0⟩

/-- R87, R90, R94, R109, R110: what both resets clear in the Trip Controller. -/
def FreshTrips (t : State) : Prop :=
  t.tc.table = [] ∧ t.tc.queue = [] ∧ t.tc.lineTerm = .none
  ∧ (∀ i : Fin 8,
      (let x := t.tc.inputs[i]
       x.enabled = false ∧ x.cls = .stop ∧ x.tripsLow = false ∧ x.debounce = 0 ∧ x.run = 0 ∧ x.tripping = false))
  ∧ t.tc.replacements = 0 ∧ t.tc.overflows = 0 ∧ t.tc.suppressed = 0 ∧ t.tc.sent = 0 ∧ t.tc.accepted = 0
  ∧ t.tc.duplicates = 0 ∧ t.tc.stale = 0 ∧ t.tc.reconciliations = 0 ∧ t.tc.expiries = 0

/-- R111, R112, R118, R123, R125, R129: a stream as the resets leave it. -/
def FreshStream (x : Stream) : Prop :=
  x.state = .idle ∧ x.configured = false ∧ x.frames = [] ∧ x.nextRow = none ∧ x.lastTrigger = none ∧ x.plan = []
  ∧ x.outstanding = [] ∧ x.row = none ∧ x.broken = false ∧ x.dark = 0 ∧ x.bright = 0 ∧ x.trigHigh = false ∧ x.fifo = []
  ∧ x.frameNumber = 0 ∧ x.counts = ⟨0, 0, 0, 0, 0, 0, 0, 0, 0, 0, 0, 0⟩
  ∧ x.set = { rowPixels := 4096, pitch := 512, phase := 0, decimation := 1, minPeriod := 125, rowTimeout := 100, threshold := 0
              webRows := 64, webClass := none }

/-- R130, R131: a pool as the resets leave it, without a buffer record. -/
def FreshPool (x : Pool) : Prop :=
  x.configured = false ∧ x.notify = false ∧ x.nextSeq = 1 ∧ x.completed = 0 ∧ x.skipped = 0 ∧ x.filling = none
  ∧ x.pendingTarget = none ∧ x.buffers = []

/-- R19: no last used beat values, and the gear input's continuity is to restart. -/
def FreshGear (t : State) : Prop :=
  t.gu.lastTheta = 0 ∧ t.gu.lastV = 0 ∧ t.gu.continuous = false ∧ t.gu.formed = false

/-- R182, R187: the counts of the Window Controller as the resets leave them. -/
def FreshWindow (t : State) : Prop :=
  t.wc.fault = false ∧ t.wc.scans = 0 ∧ t.wc.skippedScans = 0 ∧ t.wc.skippedPublishes = 0 ∧ t.wc.faults = 0

/-- R146, R147, R152, R155, R160: the View Engine as the resets leave it. -/
def FreshViews (t : State) : Prop :=
  (∀ v : Fin 4, t.ve.views[v].state = .stopped ∧ t.ve.views[v].configured = false ∧ t.ve.views[v].last = none
    ∧ t.ve.views[v].current = none
    ∧ t.ve.views[v].set = { pool := 0, dest := 63, x0 := 0, y0 := 0, w := 4096, h := 256, dx := 1, dy := 1, mean := false
                            segSize := 512 }
    ∧ viewCounts t.ve.views[v] = [0, 0, 0, 0, 0])
  ∧ (∀ b : Fin 4, t.ve.bindings[b].source = none ∧ t.ve.bindings[b].asm = .closed ∧ t.ve.bindings[b].last = none
    ∧ bindingCounts t.ve.bindings[b] = [0, 0, 0, 0, 0, 0, 0])
  ∧ t.ve.allowance = 0 ∧ t.ve.quiet = 20 ∧ t.ve.budget = 0 ∧ t.ve.turn = 0 ∧ t.ve.pendingAllowance = none
  ∧ t.ve.unbound = 0 ∧ t.ve.ringIn = []

/-- R161, R165, R170, R172, R173: the Screen Controller as the resets leave it, but for reads in flight. -/
def FreshScreen (x : Screen) : Prop :=
  x.enabled = false ∧ x.width = 640 ∧ x.height = 480 ∧ x.clock = 25 ∧ x.hFront = 16 ∧ x.hSync = 64 ∧ x.hBack = 80
  ∧ x.vFront = 3 ∧ x.vSync = 4 ∧ x.vBack = 13 ∧ x.fill = 0 ∧ x.position = none ∧ x.alarm = false ∧ x.frames = 0
  ∧ x.signature = 0 ∧ x.pclk = false ∧ x.hs = false ∧ x.vs = false ∧ x.de = false ∧ x.rgb = 0 ∧ x.fifo = []
  ∧ (∀ i : Fin 4, x.panes[i].inForce = { enable := false, host := false, pool := 0, incomplete := false, bufA := 0, bufB := 0
                                         hostStride := 1, hostWidth := 1, hostRows := 1, x := 0, y := 0, w := 320, h := 240
                                         sx := 0, sy := 0, zoom := 1, tint := false }
      ∧ x.panes[i].waiting = none ∧ x.panes[i].held = none
      ∧ x.panes[i].shownB = false ∧ x.panes[i].flip = none)
  ∧ (∀ i : Fin 2, x.palettes[i] = List.replicate 256 0 ∧ x.loads[i].state = .idle ∧ x.loads[i].cell = none)
  ∧ x.code = 0 ∧ x.square = false ∧ x.alarmMin = 0 ∧ x.duty = 0 ∧ x.blpwm = false ∧ x.underruns = 0 ∧ x.readErrors = 0

/-! ### The cycle -/

/-- The cycle's end has come without a beat (R1). -/
def CycleEnds (now : Time) (s : State) : Prop :=
  s.wc.resetting = false ∧ s.ct.start + (Period.ns s.ct.period : Int) ≤ (nowOf (advance now s) : Int)

/-- The intake event is the next of the cycle, and its time has come (R1). -/
def IntakeComes (now : Time) (s : State) : Prop :=
  s.wc.resetting = false ∧ s.ct.raisedIn = false
  ∧ s.ct.start + 1000 * (s.ct.pIn : Int) ≤ (nowOf (advance now s) : Int)

/-- The compute event is the next of the cycle, and its time has come (R1). -/
def ComputeComes (now : Time) (s : State) : Prop :=
  s.wc.resetting = false ∧ s.ct.raisedIn = true ∧ s.ct.raisedCo = false
  ∧ s.ct.start + 1000 * (s.ct.pCo : Int) ≤ (nowOf (advance now s) : Int)

/-- The issue event is the next of the cycle, and its time has come (R1). -/
def IssueComes (now : Time) (s : State) : Prop :=
  s.wc.resetting = false ∧ s.ct.raisedCo = true ∧ s.ct.raisedIs = false
  ∧ s.ct.start + 1000 * (s.ct.pIs : Int) ≤ (nowOf (advance now s) : Int)

/-- R91: a trip input after one sample of its pin. -/
def sampledInput (pin : Bool) (x : TripInput) : TripInput :=
  if x.enabled = false then x
  else if (pin != x.tripsLow) = x.tripping then { x with sampled := pin, run := 0 }
  else if x.run = x.debounce ∨ x.debounce < x.run then { x with sampled := pin, tripping := !x.tripping, run := 0 }
  else { x with sampled := pin, run := x.run + 1 }

/-- `l` is x / 256 rounded to the nearest integer, ties away from zero (section 1.8 of 00_scope.md). -/
def NearestOver256 (x l : Int) : Prop :=
  2 * (256 * l - x).natAbs ≤ 256 ∧ (2 * (256 * l - x).natAbs = 256 → x.natAbs < (256 * l).natAbs)

/-- R18, R19: the gear input formed at a compute event from θ_c and v_c, against the last ones used, with L as it then is. -/
def GearFormed (theta : Word) (v : Int) (s t : State) : Prop :=
  t.gu.lastTheta = theta ∧ t.gu.lastV = v ∧ t.gu.continuous = true
  ∧ ∃ l l0 : Int, NearestOver256 (v * (t.ct.lead : Int)) l ∧ NearestOver256 (s.gu.lastV * (t.ct.lead : Int)) l0
    ∧ t.gu.thetaX = theta + BitVec.ofInt 32 l
    ∧ t.gu.delta = if s.gu.continuous then (t.gu.thetaX - (s.gu.lastTheta + BitVec.ofInt 32 l0)).toInt else 0

/-- `x` moved toward `target` by min(|target - x|, step). -/
def towards (x target : Int) (step : Nat) : Int :=
  if x ≤ target then x + min (target - x) step else x - min (x - target) step

/-- R15: the node has entered ISOLATED at this compute event, with the decelerating substitute and BEAT_LOST. -/
def IsolatedNow (s t : State) : Prop :=
  t.ct.nodeState = .isolated ∧ t.ct.lock = false ∧ findCond t .beatLost 0 = some ⟨.beatLost, 0, .stop⟩
  ∧ GearFormed (s.gu.lastTheta + BitVec.ofInt 32 (towards s.gu.lastV 0 s.ag.aStop)) (towards s.gu.lastV 0 s.ag.aStop) s t

/-- No event of this compute event forces sections to HELD: the level is below CUT (R41), and the node does not leave ISOLATED
(R16, R43), nor CONFIG. -/
def SectionsRun (s : State) : Prop :=
  effLevel s ≠ .cut ∧ s.ct.nodeState ≠ .config ∧ s.gu.leftIsolated = false
  ∧ (s.ct.nodeState = .isolated → ∀ b, s.gu.taken = some b → b.lineState = .running ∨ b.lineState = .stopping)

/-- R19: the gear input formed from θ_c and v_c with its continuity restarted. -/
def GearRestarted (theta : Word) (v : Int) (t : State) : Prop :=
  t.gu.lastTheta = theta ∧ t.gu.lastV = v ∧ t.gu.continuous = true ∧ t.gu.restarted = true ∧ t.gu.delta = 0
  ∧ ∃ l : Int, NearestOver256 (v * (t.ct.lead : Int)) l ∧ t.gu.thetaX = theta + BitVec.ofInt 32 l

/-- R18: no gear input was formed. -/
def NoGear (s t : State) : Prop :=
  t.gu.formedNow = false ∧ t.gu.lastTheta = s.gu.lastTheta ∧ t.gu.lastV = s.gu.lastV ∧ t.gu.thetaX = s.gu.thetaX
  ∧ t.gu.delta = s.gu.delta

/-- R41, R43: the cell `e` waits with the ENGAGE of section `i`, and with nothing else of a section. -/
def OnlyEngage (s : State) (i : Fin 4) (e : Fin 16) : Prop :=
  s.gu.sections[i].engageCell = some e
  ∧ ∀ j : Fin 4, (j ≠ i → s.gu.sections[j].engageCell ≠ some e) ∧ e ∉ s.gu.sections[j].disengageCells

/-- R37, R41, R43: the cell `e` waits with a DISENGAGE of section `i`, and with nothing else of a section. -/
def OnlyDisengage (s : State) (i : Fin 4) (e : Fin 16) : Prop :=
  e ∈ s.gu.sections[i].disengageCells
  ∧ ∀ j : Fin 4, s.gu.sections[j].engageCell ≠ some e ∧ (j ≠ i → e ∉ s.gu.sections[j].disengageCells)

/-- The record of a cell that held a command keeps it, with a result (R178, R180). -/
def EndsWith (s t : State) (e : Fin 16) (r : Result) : Prop :=
  ∀ x, s.wc.records[e] = some x → ∃ y, t.wc.records[e] = some y ∧ y.cmd = x.cmd ∧ y.tag = x.tag ∧ y.result = some r

/-- R41, R43: section `i` has been forced to HELD, its pending ENGAGE and DISENGAGE cells, where they wait with no heal, ending
with the results given. -/
def SectionForced (s t : State) (i : Fin 4) (engage disengage : Result) : Prop :=
  t.gu.sections[i] = { s.gu.sections[i] with
    state := .held, jogDemand := 0, jogSpeed := 0, u := 0, q := 0, mark := false, engageCell := none, disengageCells := [] }
  ∧ ∀ e, (∀ h, s.ri.heal = some h → h.cell ≠ e) →
      (OnlyEngage s i e → EndsWith s t e engage) ∧ (OnlyDisengage s i e → EndsWith s t e disengage)

/-- A result without data. -/
def plainResult (code : ResultCode) : Result := { code := code, clamped := false, data := [] }

/-- R43, below CUT: at this compute event every configured section has become HELD, its pending commands CANCELLED, and every ACTIVE
channel holds where its last setpoint left it. -/
def IsolationActs (s t : State) : Prop :=
  effLevel s ≠ .cut →
    (∀ i : Fin 4, s.gu.sections[i].state ≠ .unset →
      SectionForced s t i (plainResult .cancelled) (plainResult .cancelled))
    ∧ ∀ k : Fin 12, s.gu.channels[k].state = .active →
      (let c := s.gu.channels[k]
       let d := t.gu.channels[k]
       d.state = .active ∧ d.hold = c.s ∧ d.s = c.s ∧ d.w = 0 ∧ d.c = 0 ∧ d.cRem = 1 ∧ d.join = false)

/-- R16, R43: the node has left ISOLATED at this compute event with the beat's θ and v. -/
def IsolationLeft (b : TakenBeat) (s t : State) : Prop :=
  t.ct.nodeState = .online ∧ GearRestarted b.theta b.v t ∧ findCond t .beatLost 0 = none ∧ IsolationActs s t

/-- R86: the RING_WRAP conditions, and the node's own entries of them, have the class NOTE. -/
@[reducible] def WrapsNote (s : State) : Prop :=
  (∀ c ∈ s.tc.conds, c.kind = .ringWrap → c.cls = .note)
  ∧ ∀ e ∈ s.tc.table, e.key.kind = .ringWrap → e.key.source = s.straps.address → e.cls = .note

/-- R41: what CUT does to a channel; a telegram it spoils is another matter (R48). -/
def CutChannel (c d : Channel) : Prop :=
  (c.state = .free → d = { c with hist0 := d.hist0 })
  ∧ (c.state = .active → d = { c with
      state := .tracking, hold := c.a, w := 0, c := 0, cRem := 1, join := false, hist0 := d.hist0 })
  ∧ (c.state = .tracking ∨ c.state = .faulted → d = { c with hold := c.a, hist0 := d.hist0 })

/-- The effective level has become CUT. -/
@[reducible] def RisesToCut (s t : State) : Prop := effLevel t = .cut ∧ effLevel s ≠ .cut

/-- The effective level has risen to STOP. -/
@[reducible] def RisesToStop (s t : State) : Prop := effLevel t = .stop ∧ (effLevel s = .none ∨ effLevel s = .note)

/-- R41, R42: what a rise of the effective level to CUT, or to STOP, does at once to the sections and to the channels but
`changed`, whose record the event itself changes. -/
def LevelActs (changed : Option (Fin 12)) (s t : State) : Prop :=
  (RisesToCut s t →
    (∀ k : Fin 12, changed ≠ some k → CutChannel s.gu.channels[k] t.gu.channels[k])
    ∧ (∀ i : Fin 4, s.gu.sections[i].state = .unset ∨ s.gu.sections[i].state = .held → t.gu.sections[i] = s.gu.sections[i])
    ∧ ∀ i : Fin 4, s.gu.sections[i].state ≠ .unset → s.gu.sections[i].state ≠ .held →
      SectionForced s t i (plainResult .tripped) (plainResult .ok))
  ∧ (RisesToStop s t → ∀ i : Fin 4, t.gu.sections[i] = { s.gu.sections[i] with
        jogDemand := if s.gu.sections[i].state = .jogging then 0 else s.gu.sections[i].jogDemand })

/-- The same, and without such a rise the sections and channels stand. -/
def LevelRises (changed : Option (Fin 12)) (s t : State) : Prop :=
  LevelActs changed s t
  ∧ (¬ RisesToCut s t → ∀ k : Fin 12, changed ≠ some k → t.gu.channels[k] = s.gu.channels[k])
  ∧ (¬ RisesToCut s t → ¬ RisesToStop s t → t.gu.sections = s.gu.sections)

/-- R48: where the effective level has become CUT while a SETPOINT with torque enable is on the line, its two CRC bytes go out
complemented and its exchange is closed as if never started. -/
def TelegramCut (s t : State) : Prop :=
  ∀ x, RisesToCut s t → s.dlc.exchange = some x → x.torque = true → (nowOf s : Int) < s.dlc.driveUntil →
    s.dlc.telegram.length = 24 →
      t.dlc = { s.dlc with
        exchange := none, telegram := s.dlc.telegram.take 22 ++ (s.dlc.telegram.drop 22).map (fun b => ~~~ b) }
      ∧ ∀ k : Fin 12, t.gu.channels[k].hist0 = if k = x.slot.channel then .notSent else s.gu.channels[k].hist0

/-- The same, and otherwise the drive line is left alone. -/
def TelegramSpoiled (s t : State) : Prop :=
  TelegramCut s t
  ∧ (¬ RisesToCut s t ∨ (∀ x, s.dlc.exchange = some x → x.torque = false) ∨ s.dlc.driveUntil ≤ (nowOf s : Int) →
      t.dlc = s.dlc ∧ ∀ k : Fin 12, t.gu.channels[k].hist0 = s.gu.channels[k].hist0)

/-- R94: a change burst has been queued, in the place of one of its key, behind the others, or, with 16 waiting, suppressed. -/
def BurstQueued (s t : State) (q : QBurst) : Prop :=
  (∀ i, s.tc.queue.findIdx? (fun x => decide (x.key = q.key)) = some i →
    t.tc.queue = s.tc.queue.set i q ∧ t.tc.suppressed = s.tc.suppressed)
  ∧ ((∀ x ∈ s.tc.queue, x.key ≠ q.key) →
    (s.tc.queue.length < 16 → t.tc.queue = s.tc.queue ++ [q] ∧ t.tc.suppressed = s.tc.suppressed)
    ∧ (16 ≤ s.tc.queue.length → t.tc.queue = s.tc.queue ∧ t.tc.suppressed = s.tc.suppressed + 1))

/-- The table, the queue and the count of suppressed bursts stand. -/
def TripsStand (s t : State) : Prop :=
  t.tc.table = s.tc.table ∧ t.tc.queue = s.tc.queue ∧ t.tc.suppressed = s.tc.suppressed

/-- R86, R88: a condition has become gone. Outside CONFIG its ACTIVE own entry is LATCHED, with a change burst; nothing else of
the Trip Controller but its inputs has changed. -/
def ConditionGone (s t : State) (kind : TripKind) (index : Nat) : Prop :=
  t.tc = { s.tc with conds := t.tc.conds, inputs := t.tc.inputs, table := t.tc.table, queue := t.tc.queue
                     suppressed := t.tc.suppressed }
  ∧ t.tc.conds = s.tc.conds.filter (fun x => decide (x.kind ≠ kind ∨ x.index ≠ index))
  ∧ (s.ct.nodeState = .config → TripsStand s t)
  ∧ (findEntry s (ownKey s kind index) = none → TripsStand s t)
  ∧ ∀ e, findEntry s (ownKey s kind index) = some e →
      (e.latched = true → TripsStand s t)
      ∧ (e.latched = false → s.ct.nodeState ≠ .config →
          t.tc.table = s.tc.table.map (fun x =>
            if x.key = e.key then { x with latched := true, lastChange := s.ct.n } else x)
          ∧ BurstQueued s t { key := e.key, cls := e.cls, state := .latched, refresh := false, cycle := s.ct.n
                              pos := e.firstPos, count := e.count })

/-- R86, R88: the class of a condition has changed. Outside CONFIG its ACTIVE own entry takes the class, with a change burst. -/
def ConditionReclassed (s t : State) (kind : TripKind) (index : Nat) (cls : TripClass) : Prop :=
  t.tc = { s.tc with conds := t.tc.conds, inputs := t.tc.inputs, table := t.tc.table, queue := t.tc.queue
                     suppressed := t.tc.suppressed }
  ∧ findCond t kind index = some ⟨kind, index, cls⟩
  ∧ (∀ (k : TripKind) (n : Nat), (k ≠ kind ∨ n ≠ index) → findCond t k n = findCond s k n)
  ∧ (s.ct.nodeState = .config ∨ findEntry s (ownKey s kind index) = none → TripsStand s t)
  ∧ ∀ e, findEntry s (ownKey s kind index) = some e →
      (e.latched = true → TripsStand s t)
      ∧ (e.latched = false → s.ct.nodeState ≠ .config →
          t.tc.table = s.tc.table.map (fun x => if x.key = e.key then { x with cls := cls, lastChange := s.ct.n } else x)
          ∧ BurstQueued s t { key := e.key, cls := cls, state := .active, refresh := false, cycle := s.ct.n
                              pos := e.firstPos, count := e.count })

/-- R87, R88: the ACTIVE entry that a condition gets at cycle `n`. -/
def entryOf (s : State) (n : Word) (c : Cond) : TripEntry :=
  { key := ownKey s c.kind c.index, cls := c.cls, latched := false, firstCycle := n, firstPos := newPosition s c.kind
    lastChange := n, count := 1, seq := none, age := 0 }

/-- R93: the change burst of an entry. -/
def burstOf (n : Word) (e : TripEntry) : QBurst :=
  { key := e.key, cls := e.cls, state := if e.latched then .latched else .active, refresh := false, cycle := n
    pos := e.firstPos, count := e.count }

/-- R87, R88, R89, R93: the own entry `e` has been made: at the end of the table, with its change burst; in a full table in the
place of the first LATCHED NOTE entry, whose CLEARED burst goes first where that was an own one; or, as a NOTE or with no such
entry, not at all. -/
def OwnStored (s t : State) (e : TripEntry) : Prop :=
  (s.tc.table.length < 32 → t.tc.table = s.tc.table ++ [e] ∧ BurstQueued s t (burstOf s.ct.n e)
    ∧ t.tc.overflows = s.tc.overflows ∧ t.tc.replacements = s.tc.replacements)
  ∧ (32 ≤ s.tc.table.length → e.cls = .note ∨ (∀ x ∈ s.tc.table, x.latched = false ∨ x.cls ≠ .note) →
    TripsStand s t ∧ t.tc.overflows = s.tc.overflows + 1 ∧ t.tc.replacements = s.tc.replacements)
  ∧ ∀ pre old post, 32 ≤ s.tc.table.length → e.cls ≠ .note → TripTableKept s → s.tc.table = pre ++ old :: post →
      old.latched = true → old.cls = .note → (∀ x ∈ pre, x.latched = false ∨ x.cls ≠ .note) →
    t.tc.table = pre ++ post ++ [e] ∧ t.tc.overflows = s.tc.overflows ∧ t.tc.replacements = s.tc.replacements + 1
    ∧ (old.key.source ≠ s.straps.address → BurstQueued s t (burstOf s.ct.n e))
    ∧ (old.key.source = s.straps.address → (∀ q ∈ s.tc.queue, q.key ≠ old.key ∧ q.key ≠ e.key) →
        s.tc.queue.length < 15 → t.tc.queue = s.tc.queue
          ++ [{ burstOf s.ct.n old with state := .cleared, count := 0 }, burstOf s.ct.n e])

/-- R86, R88, R89: a condition has become present or, where it was present, has occurred. Outside CONFIG its own entry is made; a
LATCHED one is ACTIVE again; an ACTIVE one counts an occurrence, and takes the class of one that differs. -/
def ConditionMet (s t : State) (c : Cond) : Prop :=
  let key := ownKey s c.kind c.index
  let counted := fun e : TripEntry => { e with count := if e.count < 255 then e.count + 1 else e.count }
  let again := fun e : TripEntry => { counted e with latched := false, cls := c.cls, lastChange := s.ct.n }
  let becomes := fun f : TripEntry → TripEntry => t.tc.table = s.tc.table.map fun x => if x.key = key then f x else x
  t.tc = { s.tc with conds := t.tc.conds, inputs := t.tc.inputs, table := t.tc.table, queue := t.tc.queue
                     suppressed := t.tc.suppressed, overflows := t.tc.overflows, replacements := t.tc.replacements }
  ∧ findCond t c.kind c.index = some c
  ∧ (∀ (k : TripKind) (n : Nat), (k ≠ c.kind ∨ n ≠ c.index) → findCond t k n = findCond s k n)
  ∧ (s.ct.nodeState = .config → TripsStand s t)
  ∧ (s.ct.nodeState ≠ .config → findEntry s key = none → OwnStored s t (entryOf s s.ct.n c))
  ∧ (s.ct.nodeState = .config ∨ findEntry s key ≠ none →
      t.tc.overflows = s.tc.overflows ∧ t.tc.replacements = s.tc.replacements)
  ∧ ∀ e, s.ct.nodeState ≠ .config → findEntry s key = some e →
      (e.latched = true → becomes again ∧ BurstQueued s t (burstOf s.ct.n (again e)))
      ∧ (e.latched = false → findCond s c.kind c.index = none → TripsStand s t)
      ∧ (e.latched = false → findCond s c.kind c.index ≠ none →
          (e.cls = c.cls → becomes counted ∧ t.tc.queue = s.tc.queue ∧ t.tc.suppressed = s.tc.suppressed)
          ∧ (e.cls ≠ c.cls → becomes again ∧ BurstQueued s t (burstOf s.ct.n (again e))))

/-- R91, R88, R93: one sample of input `i` has taken the Trip Controller from `x` to `y`, where `was` and `now` are the input's
records before and after it. An input that stays leaves all else alone; one that comes to trip has its condition met, one that
comes to rest has it gone, with their entries and bursts. -/
def InputReported (s : State) (i : Fin 8) (was now : TripInput) (x y : TripCtl) : Prop :=
  y.inputs = x.inputs.set i now
  ∧ (now.tripping = was.tripping → y = { x with inputs := y.inputs })
  ∧ (was.tripping = false → now.tripping = true → findCond s .input i.val = none →
      ConditionMet { s with tc := x } { s with tc := y } ⟨.input, i.val, was.cls⟩)
  ∧ (was.tripping = true → now.tripping = false → ConditionGone { s with tc := x } { s with tc := y } .input i.val)

/-- The eight inputs have been sampled one after the other, input 0 first (log entry 60). -/
def InputsReported (s t : State) : Prop :=
  ∃ u : Fin 9 → TripCtl, u 0 = s.tc ∧ u 8 = t.tc
    ∧ ∀ i : Fin 8, InputReported s i s.tc.inputs[i] t.tc.inputs[i] (u i.castSucc) (u i.succ)

/-- R87, R183, R184: what the window shows of the trip table: where it has not changed, nothing; where it has changed once,
TRIPS is set and the version moves, and the mirror is written anew, or the rewrite in progress is out of date. -/
def TableShown (s t : State) : Prop :=
  (t.tc.table = s.tc.table → t.wc.version = s.wc.version ∧ t.wc.mirror = s.wc.mirror)
  ∧ (t.tc.table ≠ s.tc.table → t.wc.attn.getLsbD 1 = true
    ∧ t.wc.version = (if s.wc.version + 1 = 0 then 1 else s.wc.version + 1)
    ∧ (windowOn s = false → t.wc.mirror = s.wc.mirror)
    ∧ (windowOn s = true → ∀ m, s.wc.mirror = some m → t.wc.mirror = some { m with stale := true })
    ∧ (windowOn s = true → s.wc.mirror = none →
        t.wc.mirror = some { version := t.wc.version, stale := false }
        ∧ t.wc.header = { s.wc.header with version := 0 }
        ∧ [writeItem s .plain false 0 (headerBytes t.wc.header)] ++ kibItems s .mirror false 0x1000 (mirrorBytes t.tc.table)
            ++ [flushItem s .mirror false] <:+: t.wc.queue))

/-- R88, R109: every condition present has been stored in an empty table, as an ACTIVE entry, in the order in which they became
present, and the change bursts queued; `latched` picks those that are LATCHED since (R187). -/
def ConditionsStored (latched : Cond → Bool) (n : Word) (s t : State) : Prop :=
  (s.tc.conds.map fun c => (c.kind, c.index)).Nodup → s.tc.table = [] → s.tc.queue = [] → s.tc.conds.length ≤ 16 →
    t.tc.table = s.tc.conds.map (fun c => { entryOf s n c with latched := latched c })
    ∧ t.tc.queue = s.tc.conds.map (fun c => burstOf n { entryOf s n c with latched := latched c })
    ∧ (s.tc.conds ≠ [] → t.wc.attn.getLsbD 1 = true)
    ∧ t.tc = { s.tc with table := t.tc.table, queue := t.tc.queue, conds := t.tc.conds }

/-! ### Reception on the ring -/

/-- R81: the routing has not changed since the frame whose start delimiter came at `sd` began to arrive (log entry 12). -/
@[reducible] def RoutedSince (s : State) (sd : Time) : Prop := s.ri.routedAt ≤ sd.toNat

/-- R61, R81: a frame whose start delimiter came at `sd` on a port is received: the port has been UP, and the routing has stood,
since then. -/
def OnPort (s : State) (p : Port) (sd : Time) : Prop :=
  RoutedSince s sd ∧ ∃ t, s.ri.ports[p].upSince = some t ∧ t ≤ sd.toNat

/-- R62: the port that feeds the primary input outside ALONE. -/
def inputPort (s : State) : Port := if s.ri.mode = .wrapA then portB else portA

/-- R61, R62, R81: a frame is received on the primary input; in ALONE no port feeds it. -/
def OnPrimary (s : State) (sd : Time) : Prop := RoutedSince s sd ∧ (s.ri.mode = .alone ∨ OnPort s (inputPort s) sd)

/-- R61: a frame that a port does not receive: the run of idle of a SYNCING port starts again. -/
def State.ignored (s : State) (p : Port) : State :=
  let x := s.ri.ports[p]
  { s with ri := { s.ri with ports := s.ri.ports.set p (if x.state = .syncing then { x with idleRun := 0 } else x) } }

/-- R61: the same of a frame on the primary input; the loop of ALONE has no run of idle. -/
def State.ignoredInput (s : State) : State := if s.ri.mode = .alone then s else s.ignored (inputPort s)

/-- R64, R69: an intact frame received on the primary input, of another source and not removed for its hops or its length. -/
def Passes (s : State) (sd : Time) (h : FrameHead) : Prop :=
  OnPrimary s sd ∧ h.source ≠ byte s.straps.address.val ∧ h.hop.toNat < 64 ∧ h.length.toNat ≤ 1024

/-- R61: the way by which a repeated frame came, none for the node's own loop, which feeds the primary input in ALONE (R62). -/
def inputOf (s : State) : Option Port :=
  match s.ri.mode with
  | .through | .wrapB => some portA
  | .wrapA => some portB
  | .alone => none

/-- R66, R70, R78, R79, R153, R190: an own frame starts out at `T`, sent whole: its start and end delimiters, 16 header bytes, the
payload and 4 CRC bytes take 8 ns each. -/
def OwnStarts (s : State) (T : Nat) (x : Sending) : Prop :=
  x.frame.source = byte s.straps.address.val ∧ x.frame.hop = 0 ∧ x.frame.rest = Vector.replicate 10 0
  ∧ x.damaged = false ∧ x.repeated = none ∧ x.slotOwed = false ∧ x.startsAt = T
  ∧ x.endsAt = T + (x.frame.length.toNat + 22) * 8

/-- A frame on its way out ends at once, marked, where its arrival ended with `n` bytes between the delimiters (R64). -/
def endedSending (n : Nat) (x : Sending) : Sending := { x with damaged := true, endsAt := x.startsAt + (n + 2) * 8 }

/-- The same of a place of the forwarding store: its copy will leave so, and where it is on its way out the place is free with its
end (R64, R67). -/
def endedPlace (n : Nat) (p : Place) : Place :=
  { copy := { p.copy with damaged := some n }, sentAt := p.sentAt.map fun e => e + (n + 2) * 8 - frameTime p.copy.frame }

/-- R63, R64, R67, R73, R74, R83: a frame that came by `input` with its start delimiter at `sd` has ended damaged, with `bytes`
between its delimiters: where it is on its way out it ends there, marked; a copy of it that waits or is delayed will; its place is
free with its end, and a finding made of its header is dropped. On the line master the BEAT of its own is a returning beat, which a
waiting RING_HEAL counts. No other frame is touched. -/
def FrameDamaged (input : Option Port) (sd : Nat) (bytes : List Byte) (s t : State) : Prop :=
  let n := bytes.length
  let out := fun x : Sending => if x.repeated = some (input, sd) then endedSending n x else x
  let returning := s.straps.master = true ∧ s.wc.resetting = false ∧ inputOf s = input ∧ 16 ≤ n ∧ bytes[0]? = some 1
    ∧ bytes[2]? = some (byte s.straps.address.val) ∧ bytes[3]? = some 63
  t.ri.primaryTx = s.ri.primaryTx.map out ∧ (∀ q : Port, t.ri.linkTx[q] = s.ri.linkTx[q].map out)
  ∧ t.ri.delayed = s.ri.delayed.map (fun c => if c.port = input ∧ c.sd = sd then { c with damaged := some n } else c)
  ∧ t.ri.store = s.ri.store.map (fun p => if p.copy.port = input ∧ p.copy.sd = sd then endedPlace n p else p)
  ∧ t.ri.beatIn = s.ri.beatIn.filter (fun y => decide (y.sd ≠ sd ∨ inputOf s ≠ input))
  ∧ (returning → t.ri.heal = s.ri.heal.map fun h => { h with returns := h.returns + 1 })
  ∧ (¬ returning → t.ri.heal = s.ri.heal)
  ∧ t = { s with ri := { s.ri with ports := t.ri.ports, delayed := t.ri.delayed, store := t.ri.store, heal := t.ri.heal
                                   primaryTx := t.ri.primaryTx, linkTx := t.ri.linkTx, beatIn := t.ri.beatIn } }

/-- R71: this node writes its slot into the BEATs of another source. -/
@[reducible] def WritesSlot (s : State) : Prop :=
  s.straps.master = false ∧ (s.ct.nodeState = .joining ∨ s.ct.nodeState = .online ∨ s.ct.nodeState = .holdover
    ∨ s.ct.nodeState = .isolated)

/-- R71, R74: local time has reached `now` (R1), and the slots that passed until then have been read and written as the node
stood: the slot owed to a BEAT on its way out lies 328 ns and 64 ns for each lower address behind its start delimiter; a slot
that arrives stamped is in with its 64 ns, and is a finding of a node that writes slots (log entry 33). Nothing else has changed. -/
def SlotsPassed (now : Time) (s t : State) : Prop :=
  let T := nowOf t
  let a := s.straps.address
  let behind := 328 + 64 * a.val
  t.ct.localTime.toNat = max s.ct.localTime.toNat now.toNat
  ∧ t = { s with ct := { s.ct with localTime := t.ct.localTime }
                 ri := { s.ri with primaryTx := t.ri.primaryTx, beatIn := t.ri.beatIn } }
  ∧ (s.ri.primaryTx = none → t.ri.primaryTx = none)
  ∧ (∀ x, s.ri.primaryTx = some x →
      (x.slotOwed = false ∨ T < x.startsAt + behind → t.ri.primaryTx = some x)
      ∧ (x.slotOwed = true → x.startsAt + behind ≤ T → ∃ f, t.ri.primaryTx = some { x with slotOwed := false, frame := f }
          ∧ (¬ WritesSlot s ∨ (∀ b, x.frame.payload ≠ .beat b) → f = x.frame)
          ∧ ∀ b, WritesSlot s → x.frame.payload = .beat b → f = { x.frame with payload := .beat { b with
              slots := b.slots.set a { mark := b.cycle.setWidth 8, nodeState := s.ct.nodeState, level := localLevel s
                                       entries := byte (ownEntries s), mode := s.ri.mode, spare := 0 } } }))
  ∧ (s.ri.beatIn = none → t.ri.beatIn = none)
  ∧ ∀ y, s.ri.beatIn = some y →
      (y.stamped = false ∨ T < y.sd + behind + 64 → t.ri.beatIn = some y)
      ∧ (y.stamped = true → y.sd + behind + 64 ≤ T → ∃ d, t.ri.beatIn = some { y with stamped := false, duplicate := d }
          ∧ (d = true ↔ y.duplicate = true ∨ WritesSlot s))

/-- R62: the transmit fibre of the primary output. -/
def outputFibre (m : RingMode) : Option Port :=
  match m with
  | .through | .wrapA => some portB
  | .wrapB => some portA
  | .alone => none

/-- R81: the ring mode has changed, and with it the routing. A frame still arriving ends damaged with the bytes that are in:
where it is on its way out it ends there, in the forwarding store it keeps its place, and in its repeat delay it is lost, as
secondary frames there are. A frame whose output goes elsewhere ends damaged (log entry 12). -/
def RoutingChanged (s t : State) : Prop :=
  let T := nowOf s
  let arriving := fun (sd : Nat) (f : Frame) => decide (T < sd + frameTime f)
  let inSoFar := fun sd : Nat => (T - sd) / 8 - 1
  let cut := fun (moved : Bool) (x : Sending) =>
    let y := match x.repeated with
      | none => x
      | some (_, sd) => if x.damaged = false ∧ arriving sd x.frame = true then endedSending (inSoFar sd) x else x
    if moved = true ∧ T < y.endsAt then { y with damaged := true } else y
  t.ri.routedAt = T ∧ t.ri.beatIn = none
  ∧ t.ri.delayed = s.ri.delayed.filter (fun c => !c.secondary && (c.damaged.isSome || !arriving c.sd c.frame))
  ∧ t.ri.store = s.ri.store.map (fun p =>
      if p.copy.damaged = none ∧ arriving p.copy.sd p.copy.frame = true then endedPlace (inSoFar p.copy.sd) p else p)
  ∧ t.ri.primaryTx = s.ri.primaryTx.map (cut (decide (outputFibre s.ri.mode ≠ outputFibre t.ri.mode)))
  ∧ ∀ q : Port, t.ri.linkTx[q] = s.ri.linkTx[q].map fun x =>
      cut (x.repeated.isSome || decide (outputFibre t.ri.mode = some q)) x

/-- The routing stands, and the frames under way with it. -/
def RoutingStands (s t : State) : Prop :=
  t.ri.routedAt = s.ri.routedAt ∧ t.ri.beatIn = s.ri.beatIn ∧ t.ri.delayed = s.ri.delayed ∧ t.ri.store = s.ri.store
  ∧ t.ri.primaryTx = s.ri.primaryTx ∧ t.ri.linkTx = s.ri.linkTx

/-- R99, R100: a remote entry, other than a DUPLICATE, that a stamped slot of a beat contradicts. -/
@[reducible] def Contradicted (s : State) (b : Beat) (e : TripEntry) : Prop :=
  e.key.source ≠ s.straps.address ∧ e.key.kind ≠ .duplicate
  ∧ b.slots[e.key.source].mark = b.cycle.setWidth 8
  ∧ (b.slots[e.key.source].level.code < e.cls.level.code ∨ b.slots[e.key.source].entries = 0)
  ∧ 1 ≤ (b.cycle - e.lastChange).toNat ∧ (b.cycle - e.lastChange).toNat ≤ 2147483647

/-- R3: a period is adopted with the phases scaled, or is the one in force. -/
def adoptedPhases (old new : Period) (p : Phases) : Phases := if new = old then p else scalePhases old new p

/-- R2: the phases at a new cycle start off the line master. -/
def startPhases (c : CycleTimer) : Phases :=
  match c.pendingCycle with
  | none => phasesOf c
  | some p => adoptedPhases p.period c.period ⟨p.pIn, p.pCo, p.pIs⟩

/-! ### Events of the drive line and the ring -/

/-- What the end of an exchange of channel `k` leaves alone, and what CUT or STOP does where its CHANNEL condition brings it
(R41, R42, R56): the other channels, the conditions of other causes, and all of the part but GU, DLC, TC and WC. -/
def ExchangeFrame (k : Fin 12) (now : Time) (s t : State) : Prop :=
  t = { advance now s with gu := t.gu, dlc := t.dlc, tc := t.tc, wc := t.wc }
  ∧ t.gu = { s.gu with sections := t.gu.sections, channels := t.gu.channels }
  ∧ t.tc = { s.tc with conds := t.tc.conds, table := t.tc.table, queue := t.tc.queue, replacements := t.tc.replacements
                       overflows := t.tc.overflows, suppressed := t.tc.suppressed }
  ∧ LevelRises (some k) s t
  ∧ (∀ (kind : TripKind) (n : Nat), (kind ≠ .channel ∨ n ≠ k.val) → findCond t kind n = findCond s kind n)
  ∧ (s.gu.channels[k].state = .free → t.gu = s.gu ∧ t.tc = s.tc ∧ t.wc = s.wc)

/-- R56: at a reply of channel `k` no condition of it became present: its CHANNEL condition stands while a set flag's condition
is present, and is gone otherwise. -/
def NothingNew (k : Fin 12) (s t : State) : Prop :=
  let c := s.gu.channels[k]
  let d := t.gu.channels[k]
  d.state = c.state ∧ d.flags = c.flags ∧ t.gu.sections = s.gu.sections
  ∧ (let stands := (c.flags.noReply && d.present.noReply) || (c.flags.following && d.present.following)
       || (c.flags.driveFault && d.present.driveFault)
     (stands = true ∨ findCond s .channel k.val = none → t.tc = s.tc ∧ t.wc = s.wc)
     ∧ (stands = false → findCond s .channel k.val ≠ none → ConditionGone s t .channel k.val))

/-- R23, R56: a condition has made channel `k`, of record `c` and after the reply's own effects of record `moved`, FAULTED, and
the Trip Controller has its CHANNEL condition. -/
def FaultRaised (k : Fin 12) (c moved : Channel) (s t : State) : Prop :=
  let was := decide (c.state = .faulted)
  t.gu.channels[k] = { moved with
    state := .faulted, hold := if RisesToCut s t then moved.a else c.hold, w := if was then c.w else 0, c := if was then c.c else 0
    cRem := if was then c.cRem else 1, join := was && c.join }
  ∧ ConditionMet s t ⟨.channel, k.val, c.cls⟩
  ∧ (TripTableKept s → t.tc.replacements = s.tc.replacements → TableShown s t)

/-- R50, R54, R56: a missing or invalid reply. -/
def ReplyMissed (x : Exchange) (now : Time) (s t : State) : Prop :=
  ExchangeFrame x.slot.channel now s t
  ∧ (s.gu.channels[x.slot.channel].state ≠ .free →
    (let c := s.gu.channels[x.slot.channel]
     let n := if c.noReplyCtr < 15 then c.noReplyCtr + 1 else c.noReplyCtr
     let moved : Channel :=
       { c with noReplyCtr := n, present := { c.present with noReply := c.present.noReply || decide (c.missLimit ≤ n) } }
     (c.present.noReply = false → c.missLimit ≤ n →
        FaultRaised x.slot.channel c { moved with flags := { c.flags with noReply := true } } s t)
     ∧ (c.present.noReply = true ∨ n < c.missLimit →
        t.gu.channels[x.slot.channel] = moved ∧ NothingNew x.slot.channel s t)))

/-- R47, R50, R52, R53, R54, R55, R59: what a valid reply puts into a channel record, before a condition acts on it. -/
def repliedRecord (c : Channel) (bytes : List Byte) : Channel :=
  let a := BitVec.ofNat 32 (beValue (field bytes 2 4))
  let e := (c.s2 - a).toInt
  let status := bytes.getD 1 0
  let far := decide (c.followLimit < e.natAbs)
  let follow := match c.hist2 with
    | .notSent => c.followCtr
    | .withoutTorque => 0
    | .withTorque => if far then (if c.followCtr < 15 then c.followCtr + 1 else c.followCtr) else 0
  { c with
    a := a, fresh := true, ready := status.getLsbD 0, driveFault := status.getLsbD 1, torqueReached := status.getLsbD 2
    torque := (BitVec.ofNat 16 (beValue (field bytes 6 2))).toInt, err := e, noReplyCtr := 0, followCtr := follow
    driveCtr := if status.getLsbD 1 then (if c.driveCtr < 15 then c.driveCtr + 1 else c.driveCtr) else 0
    present :=
      { noReply := false, driveFault := status.getLsbD 1
        following := match c.hist2 with
          | .notSent => c.present.following
          | .withoutTorque => false
          | .withTorque => far && (c.present.following || decide (c.followCount ≤ follow)) } }

/-- R50, R53, R54, R55, R56: a valid reply. A FOLLOWING or DRIVE_FAULT condition that becomes present makes the channel FAULTED;
where none does, the state stands, and a CHANNEL condition whose flags are all gone is gone. -/
def ReplyTaken (x : Exchange) (bytes : List Byte) (now : Time) (s t : State) : Prop :=
  ExchangeFrame x.slot.channel now s t
  ∧ (s.gu.channels[x.slot.channel].state ≠ .free →
    (let c := s.gu.channels[x.slot.channel]
     let d := repliedRecord c bytes
     let following := !c.present.following && d.present.following
     let fault := !c.present.driveFault && d.present.driveFault
     (following = true ∨ fault = true →
        FaultRaised x.slot.channel c
          { d with flags := { c.flags with following := c.flags.following || following
                                           driveFault := c.flags.driveFault || fault } } s t)
     ∧ (following = false → fault = false →
        t.gu.channels[x.slot.channel] = d ∧ NothingNew x.slot.channel s t)))

/-- R44, R49, R51, R52: the exchange timetable drawn at a compute event from the channels as the GU left them: the slots of 12
µs each in channel order, those that end by the issue event, the other channels LATE; the telegram histories move back. It
starts when the line has been idle for 20 bit times, after a SYNC that waits, or 5 µs on, though not before the part's own
telegrams leave it idle (log entry 69). -/
def TimetableDrawn (now lineFree : Time) (s t : State) : Prop :=
  let T : Int := (nowOf (advance now s) : Int)
  let own : Int := match s.dlc.sync with
    | none => s.dlc.lineFree
    | some p => max s.dlc.lineFree (max T (min (max s.dlc.lineFree (lineFree.toNat : Int)) (p.since + 5000)) + 1600)
  let free : Int := max own (lineFree.toNat : Int)
  let t0 : Int := if free ≤ T then T else if free ≤ T + 5000 then free else max (T + 5000) own
  let list := (List.finRange 12).filter fun k : Fin 12 => decide (t.gu.channels[k].state ≠ .free)
  let fits := fun n : Nat => t0 + 12000 * (n : Int) + 12000 ≤ s.ct.start + 1000 * (s.ct.pIs : Int)
  t.dlc = { s.dlc with slots := t.dlc.slots, busyStart := decide (t0 < free), late := t.dlc.late }
  ∧ t.dlc.late = s.dlc.late + BitVec.ofNat 32 ((List.range list.length).filter fun n => decide (¬ fits n)).length
  ∧ (∀ (n : Nat) (x : DriveSlot), t.dlc.slots[n]? = some x → fits n ∧ list[n]? = some x.channel)
  ∧ ∀ (n : Nat) (k : Fin 12), list[n]? = some k →
    (let c := s.gu.channels[k]
     let d := t.gu.channels[k]
     d.hist2 = c.hist1 ∧ d.hist1 = c.hist0 ∧ d.hist0 = .notSent ∧ (d.late = true ↔ ¬ fits n)
     ∧ (fits n → ∃ x, t.dlc.slots[n]? = some x ∧ x.channel = k ∧ x.start = t0 + 12000 * (n : Int)
        ∧ x.address = d.address.getD 0 ∧ x.setpoint = d.s ∧ x.feedforward = (d.s - d.s1).toInt
        ∧ ∀ i, d.sect = some i →
          (x.engaged = true ↔ t.gu.sections[i].state = .engaged)
          ∧ (x.inSync = true ↔ d.state = .active ∧ d.c = 0
              ∧ (t.gu.sections[i].state = .engaging ∨ t.gu.sections[i].state = .engaged))
          ∧ x.limit = t.gu.sections[i].torqueLimit))

/-- R81, R184: RING is set, and in CONFIG and JOINING the mode is that of the port states; where it has changed, the frames under
way are rerouted. -/
def PortMoved (s t : State) : Prop :=
  t.wc.attn.getLsbD 3 = true
  ∧ (s.ct.nodeState = .config ∨ s.ct.nodeState = .joining → t.ri.mode =
      if t.ri.ports[portA].state = .up then (if t.ri.ports[portB].state = .up then .through else .wrapB)
      else if t.ri.ports[portB].state = .up then .wrapA else .alone)
  ∧ (t.ri.mode = s.ri.mode → t.tc = s.tc ∧ RoutingStands s t)
  ∧ (t.ri.mode ≠ s.ri.mode →
      RoutingChanged s t ∧ ∀ q : Port, (findCond t .ringWrap q.val).isSome = wrapStands t.ri.mode q)
  ∧ t = { s with ri := t.ri, tc := t.tc, wc := t.wc }
  ∧ t.ri = { s.ri with
      ports := t.ri.ports, mode := t.ri.mode, routedAt := t.ri.routedAt, delayed := t.ri.delayed, store := t.ri.store
      primaryTx := t.ri.primaryTx, linkTx := t.ri.linkTx, beatIn := t.ri.beatIn }

/-! ### Capture and pools -/

/-- R113: a stream without a boundary has chosen its next row: row 0 of the next frame number at the least position of its phase
strictly ahead of θ_x. -/
def BoundaryChosen (thetaX : Word) (x : Stream) (r : NextRow) : Prop :=
  r.frame = x.frameNumber ∧ r.j = 0 ∧ ((r.pos.toNat : Int) - (x.set.phase : Int)) % 1048576 = 0
  ∧ 1 ≤ (r.pos - thetaX).toInt ∧ (r.pos - thetaX).toInt ≤ 1048576

/-- R116: the trigger time of a row at `pos`, from t_is, T in ns, θ_x, v_c and the time of the trigger planned last. -/
def rowTime (tIs T : Int) (thetaX : Word) (v : Int) (x : Stream) (last : Option Int) (pos : Word) : Int :=
  let d := (pos - thetaX).toInt
  let natural := if 0 < d then tIs + d * T / v else tIs
  match last with
  | none => natural
  | some l => max natural (l + 8 * (x.set.minPeriod : Int))

/-- R114: the next row after a row. -/
def nextRowOf (pitch : Nat) (r : NextRow) : NextRow :=
  if r.j + 1 < ceilDiv 1048576 pitch then { frame := r.frame, j := r.j + 1, pos := r.pos + BitVec.ofNat 32 pitch }
  else { frame := r.frame + 1, j := 0, pos := r.pos - BitVec.ofNat 32 (r.j * pitch) + 1048576 }

/-- R114: the row `k` rows after a row. -/
def rowAhead (pitch : Nat) (r : NextRow) : Nat → NextRow
  | 0 => r
  | k + 1 => nextRowOf pitch (rowAhead pitch r k)

/-- R124: a frame of which `k` more rows are resolved as missing. -/
def withMissing (k : Nat) (f : CapFrame) : CapFrame :=
  if k = 0 then f
  else { f with resolved := min f.rows (f.resolved + k), flags := { f.flags with gapped := true, incomplete := true } }

/-- R117, R124: the frames after `missing n` rows of each frame number `n` were resolved as missing, those without a buffer that
are whole then having completed; of a frame that no row has begun the rows are noted. -/
def FramesMissing (missing : Word → Nat) (x y : Stream) : Prop :=
  let all := x.frames.map fun f => withMissing (missing f.number) f
  let gone := fun f : CapFrame => decide (f.target = .skip ∧ f.rows ≤ f.resolved)
  let noted := fun (z : Stream) (n : Word) => ((z.ahead.find? fun a => decide (a.1 = n)).map (·.2)).getD 0
  y.frames = (all.filter fun f => !gone f)
  ∧ y.counts.completed = x.counts.completed + BitVec.ofNat 32 (all.filter gone).length
  ∧ ∀ n : Word, (∀ f ∈ x.frames, f.number ≠ n) → noted y n = noted x n + missing n

/-- R121, R124: one row of frame `n` is resolved as missing: in the frame of that number where a row has begun it, else noted for
the frame that will begin. No other frame is touched, but that those without a buffer and with no row left to resolve are
complete. -/
def RowMissing (n : Word) (x y : Stream) : Prop :=
  FramesMissing (fun m => if m = n then 1 else 0) x y
  ∧ ((∃ f ∈ x.frames, f.number = n) → y.ahead = x.ahead)
  ∧ ∀ m : Word, m ≠ n → (y.ahead.find? fun a => decide (a.1 = m)) = x.ahead.find? fun a => decide (a.1 = m)

/-- R113, R117: the row at which the planning of a stream begins: its next row, or, where it had none or is resynchronised, row 0
at the boundary that it chose. -/
def FirstRow (thetaX : Word) (resync : NextRow → Prop) (x : Stream) (r : NextRow) : Prop :=
  (∀ q, x.nextRow = some q → ¬ resync q → r = q)
  ∧ (x.nextRow = none ∨ (∃ q, x.nextRow = some q ∧ resync q) → BoundaryChosen thetaX x r)

/-- R117: the rows of frame `w` that a resynchronisation makes missing. -/
def lostRows (x : Stream) (q : NextRow) (w : Word) : Nat :=
  if q.j ≠ 0 ∧ q.frame = w then ceilDiv 1048576 x.set.pitch - q.j else 0

/-- R115, R116: the rows due from `r` on are the first `n`; the first `m` of them, `new`, are planned, each at its time, within
the cycle from t_is and the 256 places of the plan; the one after them has no time in the cycle, or no place, and it and those
behind it are dropped and missing. -/
def RowsPlanned (tIs T : Int) (thetaX : Word) (v : Int) (resync : NextRow → Prop) (r : NextRow) (new : List Trigger)
    (x y : Stream) : Prop :=
  let row := rowAhead x.set.pitch r
  let m := new.length
  let n := m + (y.counts.missedRows - x.counts.missedRows).toNat
  let due := fun k : Nat => ((row k).pos - (thetaX + BitVec.ofInt 32 v)).toInt ≤ 0
  let last := fun k : Nat => if k = 0 then x.lastTrigger else (new[k - 1]?).map (·.time)
  let time := fun k : Nat => rowTime tIs T thetaX v x (last k) (row k).pos
  let dropped := fun w : Word => ((List.range n).filter fun k => decide (m ≤ k ∧ (row k).frame = w)).length
  y.nextRow = some (row n) ∧ ¬ due n ∧ (∀ k, k < n → due k)
  ∧ (∀ k q, new[k]? = some q → q = { frame := (row k).frame, j := (row k).j, pos := (row k).pos, time := time k }
      ∧ q.time ≤ tIs + T ∧ x.plan.length + k < 256)
  ∧ (m < n → tIs + T < time m ∨ 256 ≤ x.plan.length + m)
  ∧ y.lastTrigger = last m
  ∧ y.frameNumber = x.frameNumber + BitVec.ofNat 32 ((List.range n).filter fun k => decide ((row k).j = 0)).length
  ∧ (m ≠ 0 → y.state = .capturing)
  ∧ (∀ q, x.nextRow = some q → resync q → (m = 0 → y.state = .armed)
      ∧ FramesMissing (fun w => dropped w + lostRows x q w) x y)
  ∧ ((∀ q, x.nextRow = some q → ¬ resync q) → (m = 0 → y.state = x.state) ∧ FramesMissing dropped x y)
  ∧ y = { x with plan := y.plan, nextRow := y.nextRow, lastTrigger := y.lastTrigger, frameNumber := y.frameNumber
                 state := y.state, frames := y.frames, ahead := y.ahead
                 counts := { x.counts with missedRows := y.counts.missedRows, resyncs := y.counts.resyncs
                                           completed := y.counts.completed } }

/-- R113, R115, R116, R117: the rows of a stream up to E = θ_x + v_c are planned or dropped in order, from its first row on. -/
def TriggersPlanned (tIs T : Int) (thetaX : Word) (v : Int) (resync : NextRow → Prop) (x y : Stream) : Prop :=
  ∃ (r : NextRow) (new : List Trigger), FirstRow thetaX resync x r ∧ y.plan = x.plan ++ new
    ∧ RowsPlanned tIs T thetaX v resync r new x y

/-- R115, R116: the one row `r` due at this event is planned at its time, or dropped and missing; the next row is `next`. -/
def RowPlanned (tIs T : Int) (thetaX : Word) (v : Int) (r next : NextRow) (x y : Stream) : Prop :=
  let time := rowTime tIs T thetaX v x x.lastTrigger r.pos
  y.nextRow = some next ∧ y.frameNumber = (if r.j = 0 then x.frameNumber + 1 else x.frameNumber)
  ∧ (time ≤ tIs + T → x.plan.length < 256 →
      y.plan = x.plan ++ [{ frame := r.frame, j := r.j, pos := r.pos, time := time }] ∧ y.lastTrigger = some time
      ∧ y.state = .capturing ∧ y.counts.missedRows = x.counts.missedRows)
  ∧ (tIs + T < time ∨ 256 ≤ x.plan.length →
      y.plan = x.plan ∧ y.lastTrigger = x.lastTrigger ∧ y.counts.missedRows = x.counts.missedRows + 1
      ∧ y.state = x.state)

/-- R140: `b` is the newest eligible buffer of a pool for a reader that admits INCOMPLETE frames or not, above its floor: every
other eligible buffer is older. -/
def NewestEligible (s : State) (p : Fin 6) (incomplete : Bool) (floor : Option Word) (b : Nat) (y : Buffer) : Prop :=
  let x := s.pm.pools[p]
  let fits := fun (c : Nat) (z : Buffer) => x.buffers[c]? = some z ∧ z.state = .full
    ∧ (∀ w, x.pendingTarget = some w → w.buffer ≠ c) ∧ (incomplete = true ∨ z.flags.incomplete = false)
    ∧ ∀ l, floor = some l → 1 ≤ (z.sequence - l).toNat ∧ (z.sequence - l).toNat ≤ 2147483647
  x.configured = true ∧ fits b y
  ∧ ∀ c z, c ≠ b → fits c z → 1 ≤ (y.sequence - z.sequence).toNat ∧ (y.sequence - z.sequence).toNat ≤ 2147483647

/-- R140: no buffer of a pool is eligible. -/
def NoneEligible (s : State) (p : Fin 6) (incomplete : Bool) (floor : Option Word) : Prop :=
  let x := s.pm.pools[p]
  x.configured = false ∨ ∀ c z, x.buffers[c]? = some z → z.state = .full →
    (∀ w, x.pendingTarget = some w → w.buffer ≠ c) → (incomplete = true ∨ z.flags.incomplete = false) →
    ∃ l, floor = some l ∧ ¬ (1 ≤ (z.sequence - l).toNat ∧ (z.sequence - l).toNat ≤ 2147483647)

/-- R149: a WAITING view has started on buffer `b`: SENDING with the crop clipped to the frame and its first segment being
prepared, or, for an empty crop, WAITING with the frame counted as empty. -/
def ViewStarts (b : Nat) (y : Buffer) (x z : View) : Prop :=
  let w := (min (x.set.x0 + x.set.w) y.width - x.set.x0) / x.set.dx
  let h := (min (x.set.y0 + x.set.h) y.rows - x.set.y0) / x.set.dy
  (w = 0 ∨ h = 0 → z = { x with last := some y.sequence, empty := x.empty + 1 })
  ∧ (w ≠ 0 → h ≠ 0 → (∃ p, z.prepared = some p ∧ p.ready = none ∧ p.issued = [] ∧ p.zeroed = [])
      ∧ z = { x with
          state := .sending, prepared := z.prepared
          current := some { buffer := b, sequence := y.sequence, repeatNo := y.repeatNo, w := w, h := h
                            count := ceilDiv (w * h) x.set.segSize, next := 0 } })

/-- R182, R189, 11.5: items of each region of the status page that a part publishes under `count`. -/
def PageShows (s : State) (count : Word) (image : List Byte) : Prop :=
  image.length = 1024
  ∧ field image 0x000 12 = le32 count ++ le32 s.ct.n
      ++ [byte (count.toNat % 4), byte s.ct.nodeState.code, boolByte (cutOutput s), byte s.ct.period.code]
  ∧ field image 0x00C 10 = leBytes 2 s.ct.pIn ++ leBytes 2 s.ct.pCo ++ leBytes 2 s.ct.pIs ++ leSigned 4 s.ct.correction
  ∧ field image 0x016 19 = [byte s.ct.missed, byte s.ct.lead, byte s.ct.limit] ++ le32 s.gu.lastTheta ++ leSigned 4 s.gu.lastV
      ++ le32 s.gu.thetaX ++ leSigned 4 s.gu.delta
  ∧ field image 0x02C 20 = (if s.straps.master then
        le32 s.ag.theta ++ leSigned 4 s.ag.v ++ leSigned 4 s.ag.demand ++ [byte s.ag.lineState.code, byte s.tc.lineTerm.code,
          boolByte s.ri.healFlag, byte (min s.ri.healRun 255)] ++ le32 s.ri.copyCycle
      else List.replicate 20 0)
  ∧ field image 0x040 14 = leBytes 4 s.ag.vMax ++ leBytes 4 s.ag.vRev ++ leBytes 2 s.ag.aUp ++ leBytes 2 s.ag.aDown
      ++ leBytes 2 s.ag.aStop
  ∧ (∀ a : NodeAddr, field image (0x054 + 2 * a.val + 1) 1 = [byte ((s.ri.present[a]).getD 0)]
      ∧ (((field image (0x054 + 2 * a.val) 1).getD 0 0).getLsbD 0 = (s.ri.present[a]).isSome)
      ∧ (((field image (0x054 + 2 * a.val) 1).getD 0 0).getLsbD 1 = s.ri.copy[a].stamped))
  ∧ (∀ i : Fin 4,
      (let x := s.gu.sections[i]
       field image (0x094 + 30 * i.val) 29 = [byte x.state.code] ++ leBytes 2 x.r ++ le32 x.phi ++ leSigned 5 x.q ++ leSigned 5 x.u
         ++ leSigned 4 x.offT ++ leSigned 4 x.offA ++ leSigned 4 x.jogSpeed))
  ∧ (∀ k : Fin 12,
      (let c := s.gu.channels[k]
       let marks := ((field image (0x10C + 22 * k.val + 1) 1).getD 0 0)
       field image (0x10C + 22 * k.val) 1 = [byte c.state.code]
       ∧ (marks.getLsbD 0 = c.late ∧ marks.getLsbD 1 = c.flags.noReply ∧ marks.getLsbD 2 = c.flags.following
          ∧ marks.getLsbD 3 = c.flags.driveFault ∧ marks.getLsbD 4 = c.ready ∧ marks.getLsbD 5 = c.driveFault
          ∧ marks.getLsbD 6 = c.torqueReached)
       ∧ field image (0x10C + 22 * k.val + 2) 20 = leBytes 2 (c.followCtr + 16 * c.noReplyCtr + 256 * c.driveCtr) ++ le32 c.s
           ++ le32 c.a ++ leSigned 4 c.c ++ leSigned 4 c.err ++ leSigned 2 c.torque))
  ∧ field image 0x214 10 = [byte (localLevel s).code, byte (tableLevel s).code, byte (effLevel s).code, byte s.tc.lineTerm.code,
      byte (lineStateOf s).code, byte s.tc.lineTerm.code, byte s.tc.table.length, byte (ownEntries s), byte (unstored s).length,
      byte s.tc.queue.length]
  ∧ (∀ i : Fin 8,
      (let x := s.tc.inputs[i]
       field image (0x21E + i.val) 1 =
         [byte ((if x.enabled then (if x.tripping then 2 else 1) else 0) + (if x.sampled then 4 else 0))]))
  ∧ (∀ p : Port, field image (0x22C + 8 * p.val) 1 = [byte s.ri.ports[p].state.code]
      ∧ field image (0x22C + 8 * p.val + 3) 5 = leBytes 4 (s.ri.ports[p].delay.getD 0xFFFFFFFF) ++ [s.ri.ports[p].probeNumber])
  ∧ field image 0x23C 2 = [byte s.ri.mode.code, byte (placesInUse s).length]
  ∧ (∀ u : Fin 2, field image (0x244 + 24 * u.val) 1 = [byte s.cu[u].state.code]
      ∧ field image (0x244 + 24 * u.val + 15) 6 =
          [boolByte s.cu[u].broken] ++ leBytes 2 s.cu[u].dark ++ leBytes 2 s.cu[u].bright ++ [byte s.cu[u].lastMean])
  ∧ (∀ p : Fin 6, field image (0x274 + 18 * p.val + 1) 1 = [((s.pm.pools[p].filling).map byte).getD 0xFF]
      ∧ field image (0x274 + 18 * p.val + 5) 12 =
          le32 s.pm.pools[p].nextSeq ++ le32 s.pm.pools[p].completed ++ le32 s.pm.pools[p].skipped)
  ∧ (∀ v : Fin 4, field image (0x2E0 + 16 * v.val) 5 = [byte s.ve.views[v].state.code] ++ le32 (s.ve.views[v].last.getD 0)
      ∧ field image (0x328 + 16 * v.val + 4) 5 =
          le32 (s.ve.bindings[v].last.getD 0) ++ [byte s.ve.bindings[v].asm.code])
  ∧ field image 0x320 5 = leBytes 2 s.ve.allowance ++ [byte s.ve.quiet] ++ leBytes 2 s.ve.budget
  ∧ field image 0x368 13 = [boolByte s.sc.enabled] ++ leBytes 2 s.sc.width ++ leBytes 2 s.sc.height ++ [byte s.sc.clock]
      ++ le32 s.sc.frames ++ leBytes 2 s.sc.signature.toNat ++ [boolByte s.sc.alarm]
  ∧ field image 0x378 5 = [boolByte s.mp.camerasFirst, byte s.mp.camLow, byte s.mp.camHigh, byte s.mp.scrLow,
      byte s.mp.scrUrgent]
  ∧ (∀ (i : Nat) (w : Word), (groupCounts s (count.toNat % 4))[i]? = some w → field image (0x380 + 4 * i) 4 = le32 w)
  ∧ ∀ i : Nat, (groupCounts s (count.toNat % 4)).length ≤ i → i < 32 → field image (0x380 + 4 * i) 4 = [0, 0, 0, 0]

/-- R135: a buffer whose hold reads clear and which is not the pending target. -/
def MayFill (x : Pool) (holds : List Byte) (b : Nat) (y : Buffer) : Prop :=
  x.buffers[b]? = some y ∧ holds[b]? = some 0 ∧ ∀ w, x.pendingTarget = some w → w.buffer ≠ b

/-- R134, R135: `b` is the buffer that the choice takes: the FREE one of lowest index, else the FULL one without readers that no
other such buffer is older than, the lower index being the older of equal sequences. -/
def ChosenTarget (x : Pool) (holds : List Byte) (b : Nat) : Prop :=
  (∃ y, MayFill x holds b y ∧ y.state = .free ∧ ∀ c z, MayFill x holds c z → z.state = .free → b ≤ c)
  ∨ ((∀ c z, MayFill x holds c z → z.state ≠ .free)
    ∧ oldestOf x ((List.range x.buffers.length).filter fun c => (x.buffers[c]?).any fun z =>
        decide (z.state = .full ∧ z.readers = 0) && holdClear holds c && !isPending x c) = some b)

/-- R124: the frames without those that have no buffer and are whole, which have completed. -/
def unsettled (l : List CapFrame) : List CapFrame := l.filter fun f => decide (¬ (f.target = .skip ∧ f.rows ≤ f.resolved))

/-- R114, R121: the frame that a matched row begins, the rows of it noted as missing resolved. -/
def begunFrame (x : Stream) (p : Trigger) : CapFrame :=
  withMissing (((x.ahead.find? fun a => decide (a.1 = p.frame)).map (·.2)).getD 0)
    { id := x.nextId, number := p.frame, boundary := p.pos - BitVec.ofNat 32 (p.j * x.set.pitch)
      rows := ceilDiv 1048576 x.set.pitch, resolved := 0 }

/-- R121: what a stream asks of the Pool Manager for the frame that a matched row begins. -/
def frameRequest (x : Stream) (p : Trigger) : FillRequest :=
  let b := p.pos - BitVec.ofNat 32 (p.j * x.set.pitch)
  { repeatNo := b.toNat / 1048576, width := x.set.rowPixels / x.set.decimation, firstPos := b, sequence := none }

/-- R121: a stream has begun the frame of trigger `p`, with the target given: the rows of the frames before it are resolved, and
the row of the trigger is in reception. -/
def FrameBegun (p : Trigger) (rest : List Trigger) (target : Target) (x y : Stream) : Prop :=
  let old := x.frames.map fun f => withMissing (f.rows - f.resolved) f
  y = { x with
    outstanding := rest, nextId := x.nextId + 1, ahead := y.ahead, row := some { frame := x.nextId, j := p.j }
    frames := unsettled old ++ [{ begunFrame x p with target := target }]
    counts := { x.counts with
      completed := x.counts.completed + BitVec.ofNat 32 (old.length - (unsettled old).length) } }

/-- R132: the window transactions of a write of the PM, the state byte of a change apart: that one waits for the landing. -/
def itemsOf (s : State) (w : PoolWrite) : List WinItem :=
  match w.item with
  | .fields b bytes => [writeItem s .plain false (0x1400 + (8 * w.pool.val + b) * 32 + 13) bytes]
  | .change b bytes _ => [writeItem s (.desc w.pool b) false (0x1400 + (8 * w.pool.val + b) * 32 + 14) bytes,
                          flushItem s (.desc w.pool b) false]
  | .header bytes => [writeItem s .plain false (0x1A00 + 32 * w.pool.val) bytes]

/-- R132: the writes `ws` of the PM behind those that wait: none while the window is not open; at once, up to the fields of the
first change of state, where none waits; else they join them. -/
def PoolWritten (ws : List PoolWrite) (s t : State) : Prop :=
  (windowOn s = false → t.pm.work = s.pm.work ∧ t.wc.queue = s.wc.queue)
  ∧ (windowOn s = true → s.pm.work ≠ [] → t.pm.work = s.pm.work ++ ws ∧ t.wc.queue = s.wc.queue)
  ∧ (windowOn s = true → s.pm.work = [] →
      (let plain := ws.takeWhile fun w => !w.item.changes
       t.pm.work = ws.drop plain.length
       ∧ t.wc.queue = s.wc.queue ++ (plain ++ t.pm.work.take 1).flatMap (itemsOf s)))

/-- R131, R132: the part-owned fields of a descriptor whose state stands, the state byte first. -/
def fieldsWrite (p : Fin 6) (b : Nat) (z : Buffer) : PoolWrite :=
  { pool := p, item := .fields b (byte z.state.code :: descriptorFields z) }

/-- R131, R132: the part-owned fields of a descriptor whose state has changed; the state byte follows. -/
def changeWrite (p : Fin 6) (b : Nat) (z : Buffer) : PoolWrite := { pool := p, item := .change b (descriptorFields z) z.state }

/-- R132, R141: a reader has released buffer `b` of a pool. -/
def ReaderReleased (p : Fin 6) (b : Nat) (s t : State) : Prop :=
  let x := s.pm.pools[p]
  (∀ z, x.buffers[b]? = some z → 0 < z.readers →
    t.pm.pools[p] = { x with buffers := x.buffers.set b { z with readers := z.readers - 1 } }
    ∧ PoolWritten [fieldsWrite p b { z with readers := z.readers - 1 }] s t)
  ∧ ((∀ z, x.buffers[b]? = some z → z.readers = 0) → t.pm = s.pm ∧ t.wc = s.wc)
  ∧ ∀ q : Fin 6, q ≠ p → t.pm.pools[q] = s.pm.pools[q]

/-- R132, R135, R136, R137: buffer `b` of a pool has been chosen for request `r`: it becomes FILLING, and its descriptor is
written, or, while another is FILLING, the pending target. -/
def TargetTaken (p : Fin 6) (r : FillRequest) (b : Nat) (s t : State) : Prop :=
  let x := s.pm.pools[p]
  let y := t.pm.pools[p]
  let seq := r.sequence.getD x.nextSeq
  y.nextSeq = incSkipZero seq ∧ y.skipped = x.skipped
  ∧ (x.filling = none → y.filling = some b ∧ y.pendingTarget = x.pendingTarget ∧ ∀ z, y.buffers[b]? = some z →
      z.state = .filling ∧ z.sequence = seq ∧ z.repeatNo = r.repeatNo ∧ z.width = r.width ∧ z.firstPos = r.firstPos
      ∧ z.flags = {} ∧ z.rows = 0 ∧ z.readers = 0
      ∧ PoolWritten [changeWrite p b z, { pool := p, item := .header (poolHeaderBytes y) }] s t)
  ∧ (∀ f, x.filling = some f → y.filling = some f ∧ t.pm.work = s.pm.work ∧ t.wc.queue = s.wc.queue ∧ y.pendingTarget = some
      { buffer := b, repeatNo := r.repeatNo, width := r.width, firstPos := r.firstPos, sequence := seq })
  ∧ (∀ q : Fin 6, q ≠ p → t.pm.pools[q] = s.pm.pools[q])
  ∧ ∀ c z, c ≠ b ∨ x.filling.isSome → x.buffers[c]? = some z →
      (y.buffers[c]?).map (fun w => { w with lastHold := z.lastHold }) = some z

/-- R132, R143: the frame of a request goes without a buffer, and a configured pool counts it. -/
def TargetSkipped (p : Fin 6) (s t : State) : Prop :=
  let x := s.pm.pools[p]
  let y := t.pm.pools[p]
  y.skipped = x.skipped + (if x.configured then 1 else 0) ∧ y.nextSeq = x.nextSeq ∧ y.filling = x.filling
  ∧ y.pendingTarget = x.pendingTarget ∧ (∀ q : Fin 6, q ≠ p → t.pm.pools[q] = s.pm.pools[q])
  ∧ (x.configured = true → PoolWritten [{ pool := p, item := .header (poolHeaderBytes y) }] s t)
  ∧ (x.configured = false → t.pm.work = s.pm.work ∧ t.wc.queue = s.wc.queue)

/-- R124, R186: a capture frame is not complete: a row of it is unresolved, a byte of it waits, or a write of it has no reporting
read granted behind it. -/
@[reducible] def CaptureWaits (s : State) (u : Fin 2) (f : CapFrame) : Prop :=
  f.resolved < f.rows ∨ (∃ w ∈ s.cu[u].flight, w.unit = u.val ∧ w.frame = f.id ∧ w.asked = 0)
  ∨ ∃ y ∈ s.cu[u].fifo, y.frame = f.id

/-- R159, R186: the same of a receive frame, whose assembly may be open. -/
@[reducible] def RecvWaits (s : State) (k : Fin 4) (f : RecvFrame) : Prop :=
  f.closed = false ∨ (∃ w ∈ s.ve.flight, w.unit = k.val ∧ w.frame = f.id ∧ w.asked = 0)
  ∨ ∃ y ∈ s.ve.ringIn, y.unit = k.val ∧ y.frame = f.id

/-- R186: the read behind the last write of a frame has returned. Of the writes `ws` on their way those granted before that read
have reached host memory, in the order of their grants, and the others are still on their way; a write has been granted before it
where as many reporting reads have been granted behind it as behind some write of the frame. -/
def WritesReported (unit frame : Nat) (ws rest : List DataWrite) (m m' : List Host.Cell) : Prop :=
  let known := fun w : DataWrite => decide (∃ x ∈ ws, x.unit = unit ∧ x.frame = frame ∧ x.asked ≤ w.asked)
  rest = (ws.filter fun w => !known w)
  ∧ m' = (ws.filter known).foldl (fun m w => memWriteBytes m w.addr w.bytes) m

/-- R137, R138, R139: the frame in the FILLING buffer `b` of a pool is complete, with the values given: the buffer is FULL, its
fields, its state and the pool header are to be written, and filling of the pending target starts. -/
def BufferCompleted (p : Fin 6) (b rows : Nat) (flags : FrameFlags) (firstPos : Word) (repeatNo : Nat) (s t : State) : Prop :=
  let x := s.pm.pools[p]
  let y := t.pm.pools[p]
  let header : PoolWrite := { pool := p, item := .header (poolHeaderBytes y) }
  ∃ z, y.buffers[b]? = some z
    ∧ (x.buffers[b]?).map (fun w =>
        { w with state := .full, rows := rows, flags := flags, firstPos := firstPos, repeatNo := repeatNo }) = some z
    ∧ y.filling = x.pendingTarget.map (·.buffer) ∧ y.pendingTarget = none ∧ y.completed = x.completed + 1
    ∧ y = { x with filling := y.filling, pendingTarget := none, completed := y.completed, buffers := y.buffers }
    ∧ (∀ k, k ≠ b → (∀ w, x.pendingTarget = some w → k ≠ w.buffer) → y.buffers[k]? = x.buffers[k]?)
    ∧ (∀ q : Fin 6, q ≠ p → t.pm.pools[q] = s.pm.pools[q])
    ∧ (x.pendingTarget = none → PoolWritten [changeWrite p b z, header] s t)
    ∧ (∀ w, x.pendingTarget = some w → ∃ v, y.buffers[w.buffer]? = some v
        ∧ (x.buffers[w.buffer]?).map (fun u =>
            { u with state := .filling, sequence := w.sequence, repeatNo := w.repeatNo, width := w.width, firstPos := w.firstPos
                     flags := {}, rows := 0, readers := 0 }) = some v
        ∧ PoolWritten [changeWrite p b z, header, changeWrite p w.buffer v, header] s t)
    ∧ (x.notify = true → t.wc.attn.getLsbD 2 = true)

/-- R135: a fill-target request while the window is open and no other waits: the hold bytes of the pool are read. -/
def TargetAwaited (p : Fin 6) (r : FillRequest) (s t : State) : Prop :=
  t.pm = { s.pm with pools := s.pm.pools.set p { s.pm.pools[p] with request := some r } }
  ∧ t.wc = { s.wc with queue := s.wc.queue ++ (List.range s.pm.pools[p].buffers.length).map fun k : Nat =>
      (⟨.hold p, false, windowAddr s (0x1400 + (8 * p.val + k) * 32 + 12), []⟩ : WinItem) }

/-- R132: the hold values of a choice made while the window is not open, as last read, where the buffer is FREE. -/
def holdsLastRead (x : Pool) : List Byte := x.buffers.map fun y => if y.state = .free then y.lastHold.getD 1 else 1

/-- R122, R123, R137: a stream after stored pixel `px` of the row `r` in reception, whose frame's buffer is `y` where it has
one. -/
def pixelStored (u : Fin 2) (px : Byte) (r : RowIn) (target : Target) (y : Option Buffer) (x : Stream) : Stream :=
  let got := { r with received := r.received + 1, sum := r.sum + px.toNat }
  let kept := { got with storedPixels := r.storedPixels + 1 }
  let flagged := fun f : FrameFlags → FrameFlags =>
    x.frames.map fun g => if g.id = r.frame then { g with flags := f g.flags } else g
  let put := fun a : Option Addr =>
    if x.fifo.length < 8192 then
      { x with row := some kept
               fifo := x.fifo ++ [{ unit := u.val, frame := r.frame, row := r.j, col := r.storedPixels, addr := a, byte := px }] }
    else
      { x with row := some { got with overrun := true }, frames := flagged fun f => { f with overrun := true }
               counts := { x.counts with fifoOverruns := x.counts.fifoOverruns + 1 } }
  if target = .waiting then put none
  else match y with
    | none => { x with row := some kept }
    | some b =>
      if b.capacity ≤ r.j then { x with row := some kept }
      else if b.stride ≤ r.storedPixels then { x with row := some kept, frames := flagged fun f => { f with clipped := true } }
      else put (some (b.address + BitVec.ofNat 64 (r.j * b.stride + r.storedPixels)))

/-- R122, R123, R124: the row `r` in reception of a stream has ended, its frame's target and buffer as given. A short row is
completed with zero bytes, while the FIFO has room; the row is resolved as stored, clipped or discarded, or waits for the
target. -/
def RowResolved (u : Fin 2) (r : RowIn) (target : Target) (buffer : Option Buffer) (x y : Stream) : Prop :=
  let short := decide (r.received < x.set.rowPixels)
  let waiting := decide (target = .waiting)
  let stored := buffer.any fun z => decide (r.j < z.capacity)
  let beyond := buffer.any fun z => decide (z.capacity ≤ r.j)
  let cols := if short && !r.overrun then (List.range (x.set.rowPixels / x.set.decimation)).drop r.storedPixels else []
  let put := if waiting then cols
    else if stored then cols.filter fun c => buffer.any fun z => decide (c < z.stride) else []
  let room := 8192 - x.fifo.length
  let overran := decide (room < put.length)
  let cut := stored && !overran && cols.any fun c => buffer.any fun z => decide (z.stride ≤ c)
  let all := x.frames.map fun f => if f.id = r.frame then
      { f with
        resolved := min f.rows (f.resolved + 1), stored := f.stored + (if stored then 1 else 0)
        waitingRows := if waiting then f.waitingRows ++ [r.j] else f.waitingRows
        flags := { f.flags with shortRow := f.flags.shortRow || short, clipped := f.flags.clipped || beyond || cut
                                overrun := f.flags.overrun || overran } }
    else f
  y.row = none ∧ y.frames = unsettled all
  ∧ y.fifo = x.fifo ++ ((put.take room).map fun c =>
      { unit := u.val, frame := r.frame, row := r.j, col := c, byte := 0
        addr := buffer.map fun z => z.address + BitVec.ofNat 64 (r.j * z.stride + c) })
  ∧ y.counts = { x.counts with
      shortRows := x.counts.shortRows + (if short then 1 else 0)
      clippedRows := x.counts.clippedRows + (if beyond then 1 else 0)
      discarded := x.counts.discarded + (if !waiting && buffer.isNone then 1 else 0)
      fifoOverruns := x.counts.fifoOverruns + (if overran then 1 else 0)
      completed := x.counts.completed + BitVec.ofNat 32 (all.length - (unsettled all).length) }
  ∧ y = { x with row := none, frames := y.frames, fifo := y.fifo, counts := y.counts, dark := y.dark, bright := y.bright
                 broken := y.broken, lastMean := y.lastMean }

/-- R132: the PM's writes `ws` have gone out in order up to the first change of state, whose state byte, with what follows it,
waits; `items` are the transactions that they issued. -/
def PoolWritesIssued (s t : State) (ws : List PoolWrite) (items : List WinItem) : Prop :=
  ∃ out, ws = out ++ t.pm.work ∧ (∀ w ∈ out, w.item.changes = false) ∧ (∀ w ∈ t.pm.work.head?, w.item.changes = true)
    ∧ t.pm = { s.pm with work := t.pm.work } ∧ items = (out ++ t.pm.work.take 1).flatMap (itemsOf s)

/-- R187: the window has been resumed. The header as last formed is written, then the mirror is rewritten, then the tag and result
of every record that kept a result, in cell order, and then every descriptor and pool header. -/
def WindowResumed (s t : State) : Prop :=
  let results : List WinItem := (List.finRange 16).flatMap fun c : Fin 16 => match s.wc.records[c] with
    | none => []
    | some x => match x.result with
      | none => []
      | some r => if x.phase = .kept then
          [writeItem s (.cell c) false (0x400 + 64 * c.val + 2) (leBytes 2 x.tag.toNat),
           writeItem s (.cell c) false (0x400 + 64 * c.val + 0x30) ([byte r.code.code, boolByte r.clamped] ++ padTo 14 r.data),
           flushItem s (.cell c) false]
        else []
  let pools : List PoolWrite := (List.finRange 6).flatMap fun p : Fin 6 =>
    if s.pm.pools[p].configured = true then
      (s.pm.pools[p].buffers.zipIdx.map fun y =>
        { pool := p, item := .change y.2 (descriptorFields y.1) y.1.state, rewrite := true })
      ++ [{ pool := p, item := .header (poolHeaderBytes s.pm.pools[p]), rewrite := true }]
    else []
  t.wc.header = { s.wc.header with version := 0 } ∧ t.wc.mirror = some { version := t.wc.version, stale := false }
  ∧ (∀ c : Fin 16, t.wc.records[c] = s.wc.records[c].map fun x =>
      if x.result.isSome ∧ x.phase = .kept then { x with phase := .fields } else x)
  ∧ ∃ items, PoolWritesIssued s t pools items
    ∧ t.wc.queue = s.wc.queue
        ++ [writeItem s .plain false 0 (headerBytes s.wc.header), writeItem s .plain false 0 (headerBytes t.wc.header)]
        ++ kibItems s .mirror false 0x1000 (mirrorBytes t.tc.table) ++ [flushItem s .mirror false] ++ results ++ items

/-! ### The memory port -/

/-- What a requester presents, by its condition for a high request and its condition for a low one (R185). -/
def RequestFormed (high low : Prop) (l : ReqLevel) : Prop :=
  (high → l = .high) ∧ (¬ high → low → l = .low) ∧ (¬ high → ¬ low → l = .quiet)

/-- R121, R136, R185: the oldest bytes of a camera FIFO have addresses in the FILLING buffer. -/
@[reducible] def CameraReady (s : State) (u : Fin 2) : Prop :=
  ∃ b ∈ s.cu[u].fifo.head?, b.addr ≠ none
    ∧ ∃ f ∈ s.cu[u].frames.find? (fun f => decide (f.id = b.frame)),
      ∃ i ∈ s.pm.pools[capturePool u].filling, f.target = .buffer i

/-- R186 (log entry 41): the frame in the FILLING buffer of a camera has its rows resolved and no byte left to write, a write of it
still needs a reporting read, and no oldest byte awaits its address. -/
@[reducible] def CameraReportOwed (s : State) (u : Fin 2) : Prop :=
  (∀ b ∈ s.cu[u].fifo.head?, b.addr ≠ none)
  ∧ ∃ f ∈ s.cu[u].frames, (∃ i ∈ s.pm.pools[capturePool u].filling, f.target = .buffer i) ∧ f.rows ≤ f.resolved
    ∧ (∀ y ∈ s.cu[u].fifo, y.frame ≠ f.id) ∧ ∃ w ∈ s.cu[u].flight, w.unit = u.val ∧ w.frame = f.id ∧ w.asked = 0

/-- The binding and the receive frame that a byte of the ring-in buffer belongs to satisfy `q`. -/
@[reducible] def ByteOf (s : State) (b : FifoByte) (q : Fin 4 → RecvFrame → Prop) : Prop :=
  ∃ k : Fin 4, b.unit = k.val ∧ ∃ f ∈ s.ve.bindings[k].frames.find? (fun f => decide (f.id = b.frame)), q k f

/-- R136, R157, R185: the oldest bytes of the ring-in buffer have addresses in the FILLING buffer of their pool. -/
@[reducible] def RingInReady (s : State) : Prop :=
  ∃ b ∈ s.ve.ringIn.head?, b.addr ≠ none
    ∧ ByteOf s b fun k f => ∃ i ∈ s.pm.pools[recvPool k].filling, f.target = .buffer i

/-- R186 (log entry 41): the same of a closed receive frame. -/
@[reducible] def RingInReportOwed (s : State) : Prop :=
  (∀ b ∈ s.ve.ringIn.head?, b.addr ≠ none)
  ∧ ∃ k : Fin 4, ∃ f ∈ s.ve.bindings[k].frames, (∃ i ∈ s.pm.pools[recvPool k].filling, f.target = .buffer i)
    ∧ f.closed = true ∧ (∀ y ∈ s.ve.ringIn, ¬ (y.unit = k.val ∧ y.frame = f.id))
    ∧ ∃ w ∈ s.ve.flight, w.unit = k.val ∧ w.frame = f.id ∧ w.asked = 0

/-- R173, R185: the bytes in the screen FIFO and on their way to it (log entry 75). -/
@[reducible] def screenFill (s : State) : Nat := s.sc.fifo.length + (s.sc.reads.map (·.length)).sum

/-- R173, R185: the screen has pane data to fetch, and its fill is at or below `mark` units of 64 bytes. -/
@[reducible] def ScreenFetches (s : State) (mark : Nat) : Prop := (nextRead s.sc).isSome = true ∧ screenFill s ≤ 64 * mark

/-- R185: what each requester presents: the screen and the cameras by their marks, ring-in from 1024 bytes or a closed frame on,
the window high during a publish's writes, ring-out for source bytes. -/
def LevelsFormed (s : State) : Prop :=
  RequestFormed (ScreenFetches s s.mp.scrUrgent)
    (ScreenFetches s s.mp.scrLow ∨ ∃ i : Fin 2, s.sc.loads[i].state = .reading ∧ s.sc.loads[i].issued < 768) (levelOf s .screen)
  ∧ (∀ u : Fin 2,
      RequestFormed ((CameraReady s u ∨ CameraReportOwed s u) ∧ 64 * s.mp.camHigh ≤ s.cu[u].fifo.length)
        ((CameraReady s u ∧ (64 * s.mp.camLow ≤ s.cu[u].fifo.length ∨ ∃ b ∈ s.cu[u].fifo,
            ∃ f ∈ s.cu[u].frames.find? (fun f => decide (f.id = b.frame)), f.rows ≤ f.resolved)) ∨ CameraReportOwed s u)
        (levelOf s (if u = 0 then .camera0 else .camera1)))
  ∧ RequestFormed
      ((RingInReady s ∧ (1024 ≤ s.ve.ringIn.length ∨ ∃ b ∈ s.ve.ringIn, ByteOf s b fun _ f => f.closed = true))
        ∨ RingInReportOwed s) False (levelOf s .ringIn)
  ∧ RequestFormed (∃ x ∈ s.wc.queue, x.publish = true) (s.wc.queue ≠ []) (levelOf s .window)
  ∧ RequestFormed False (∃ v : Fin 4, ∃ p ∈ s.ve.views[v].prepared, p.toRead ≠ []) (levelOf s .ringOut)

/-- R173, R186: a pane read has been issued: from the first line on that has source bytes left to fetch, in raster order, the most
that has consecutive addresses in one 256-byte block and room in the screen FIFO, the bytes on their way counted. -/
def PaneReadIssued (x y : Screen) : Prop :=
  ∃ (line skip : Nat) (run : List Need),
    (let fill := x.fifo.length + (x.reads.map (·.length)).sum
     let left := (lineNeeds x line).drop skip
     let address := fun k : Nat => (run.head?.map (needAddr x)).getD 0 + k
     0 < run.length ∧ run.length ≤ 256 ∧ fill + run.length ≤ 4096 ∧ run = left.take run.length
     ∧ (∀ k n, run[k]? = some n → needAddr x n = address k ∧ (0 < k → address k % 256 ≠ 0))
     ∧ (∀ n, left[run.length]? = some n →
          needAddr x n ≠ address run.length ∨ address run.length % 256 = 0 ∨ fill + run.length = 4096)
     ∧ x.fetchLine ≤ line ∧ line < x.height ∧ (line = x.fetchLine → skip = x.fetchAt)
     ∧ (x.fetchLine < line → skip = 0 ∧ (lineNeeds x x.fetchLine).drop x.fetchAt = []
          ∧ ∀ m, x.fetchLine < m → m < line → lineNeeds x m = [])
     ∧ y = { x with reads := x.reads ++ [run], fetchLine := line, fetchAt := skip + run.length })

/-- R170, R186: a read of a palette load has been issued, of the lower palette that has bytes to read. -/
def PaletteReadIssued (x y : Screen) : Prop :=
  ∃ i : Fin 2, x.loads[i].state = .reading ∧ x.loads[i].issued < 768
    ∧ (∀ j : Fin 2, j < i → x.loads[j].state ≠ .reading ∨ 768 ≤ x.loads[j].issued)
    ∧ y = { x with loads := x.loads.set i { x.loads[i] with
        issued := x.loads[i].issued + min (768 - x.loads[i].issued)
          (256 - (x.loads[i].address.toNat + x.loads[i].issued) % 256) } }

/-- R151, R186: a source read of the segment in preparation has been issued, of the lowest view that has one left. -/
def SourceReadIssued (x y : ViewEngine) : Prop :=
  ∃ v : Fin 4, ∃ p, x.views[v].prepared = some p ∧ ∃ r rest, p.toRead = r :: rest
    ∧ (∀ w : Fin 4, w < v → ∀ q, x.views[w].prepared = some q → q.toRead = [])
    ∧ y = { x with views := x.views.set v { x.views[v] with
        prepared := some { p with toRead := rest, issued := p.issued ++ [r] } } }

/-! ### Host commands -/

/-- The row of the table that carries a command of the board. -/
def hostRow (cell : Fin 16) (tag : Half) : BoardCmd → Instr
  | .setCycle p => .setCycle cell tag p
  | .setHoldover p => .setHoldover cell tag p
  | .setLineSpeed d => .setLineSpeed cell tag d
  | .setLineLimits p => .setLineLimits cell tag p
  | .setSection p => .setSection cell tag p
  | .assignChannel p => .assignChannel cell tag p
  | .torque p => .torque cell tag p
  | .engage x => .engage cell tag x
  | .disengage x => .disengage cell tag x
  | .jog p => .jog cell tag p
  | .trim p => .trim cell tag p
  | .clearChannelFault x => .clearChannelFault cell tag x
  | .forgetNode x => .forgetNode cell tag x
  | .ringHeal => .ringHeal cell tag
  | .setTripInput p => .setTripInput cell tag p
  | .raiseTrip p => .raiseTrip cell tag p
  | .releaseTrip x => .releaseTrip cell tag x
  | .clearTrip p => .clearTrip cell tag p
  | .lineRearm => .lineRearm cell tag
  | .setStream p => .setStream cell tag p
  | .startStream x => .startStream cell tag x
  | .stopStream x => .stopStream cell tag x
  | .setPool p descs => .setPool cell tag p descs
  | .setView p => .setView cell tag p
  | .startView x => .startView cell tag x
  | .stopView x => .stopView cell tag x
  | .setViewAllowance p => .setViewAllowance cell tag p
  | .setReceive p => .setReceive cell tag p
  | .setScreen p => .setScreen cell tag p
  | .screenEnable x => .screenEnable cell tag x
  | .setPane p => .setPane cell tag p
  | .flipPane x => .flipPane cell tag x
  | .loadPalette p => .loadPalette cell tag p
  | .setBacklight p => .setBacklight cell tag p
  | .setMemoryOrder p => .setMemoryOrder cell tag p
  | .unknown code => .unknown cell tag code

/-- The records of the WC once a free record has taken a command and holds its result (R178, R180). -/
def State.answeredRecords (s : State) (cell : Fin 16) (tag : Half) (cmd : BoardCmd) (r : Result) :
    Vector (Option CellRecord) 16 :=
  s.wc.records.set cell (some { cmd := cmd, tag := tag, result := some r, phase := if windowOn s then .fields else .kept })

/-- R179, R180: the writes that an immediate command issues: TAKEN, then the tag and the result, then the read that reports
them. -/
def State.answerItems (s : State) (cell : Fin 16) (tag : Half) (r : Result) : List WinItem :=
  [writeItem s .plain false (0x400 + 64 * cell.val) [2],
   writeItem s (.cell cell) false (0x400 + 64 * cell.val + 2) (leBytes 2 tag.toNat),
   writeItem s (.cell cell) false (0x400 + 64 * cell.val + 0x30)
     ([byte r.code.code, boolByte r.clamped] ++ padTo 14 r.data),
   flushItem s (.cell cell) false]

/-- R178 to R180: the part after a command was taken and answered with `r` at once, if nothing else of it changed. -/
def State.answer (s : State) (cell : Fin 16) (tag : Half) (cmd : BoardCmd) (r : Result) : State :=
  { s with wc := { s.wc with
      records := s.answeredRecords cell tag cmd r
      queue := s.wc.queue ++ if windowOn s then s.answerItems cell tag r else [] } }

/-- The part after a command was taken and refused (section 1.9 of 00_scope.md). -/
def State.refused (s : State) (cell : Fin 16) (tag : Half) (cmd : BoardCmd) (code : ResultCode) : State :=
  s.answer cell tag cmd { code := code, clamped := false, data := [] }

/-- R180: the records once a free record has taken a long-running command. -/
def State.takenRecords (s : State) (cell : Fin 16) (tag : Half) (cmd : BoardCmd) : Vector (Option CellRecord) 16 :=
  s.wc.records.set cell (some { cmd := cmd, tag := tag })

/-- R179, R180: the part after a long-running command was taken, if nothing else of it changed. -/
def State.taken (s : State) (cell : Fin 16) (tag : Half) (cmd : BoardCmd) : State :=
  { s with wc := { s.wc with
      records := s.takenRecords cell tag cmd
      queue := s.wc.queue ++ if windowOn s then [writeItem s .plain false (0x400 + 64 * cell.val) [2]] else [] } }

/-- DONE with result data. -/
def resultOk (data : List Byte) : Result := { code := .ok, clamped := false, data := data }

end Sys2Proof.Machine
end

