-- ==== Sys2Proof/Certificates/Slice0/Obligations.lean ====
section
/-! DEFINITION. The statements for the provers. Each docstring names the rules of spec/ it formalises. Where a conclusion reads
`t = { s with … := t.… }`, every part of the state that it does not name is unchanged. -/

open Sys2Proof Sys2Proof.Machine

/-! ### The whole machine -/

/-- The command at the front of the queue runs on the part with the queue's rest; on an empty queue the part idles (log entry
15). -/
def Obligations.StepTakesFront : Prop :=
  (∀ (c : Instr) (rest : List Instr) (s : State), step (s.withPending (c :: rest)) = exec c (s.withPending rest))
  ∧ ∀ s : State, s.pending = [] → step s = .next s

/-- No command of the table stops the part, and none but its sender touches the queue. -/
def Obligations.EveryCommandCompletes : Prop :=
  ∀ (c : Instr) (s : State), ∃ t, exec c s = .next t ∧ t.pending = s.pending

/-- The rules of the invariants hold right after power-on reset. -/
def Obligations.ResetKeepsRules : Prop := AllKept State.reset

/-- What the part has written to host memory keeps its one form, and WINBASE its alignment (R175). -/
def Obligations.MemoryKeptByStep : Prop := ∀ s t : State, MemoryKept s → step s = .next t → MemoryKept t

/-- R27: "For every section the remainder satisfies 0 ≤ r < M." -/
def Obligations.RemaindersKeptByStep : Prop := ∀ s t : State, RemaindersBelow s → step s = .next t → RemaindersBelow t

/-- R2, R3, R10, R11, R17: phases stay ordered, through scaling and adoption too; the demand stays within the limits. -/
def Obligations.LimitsKeptByStep : Prop := ∀ s t : State, LimitsKept s → step s = .next t → LimitsKept t

/-- R87, R89, R94: the table and the transmit queue keep their sizes and the distinctness of their keys. -/
def Obligations.TripTableKeptByStep : Prop := ∀ s t : State, TripTableKept s → step s = .next t → TripTableKept t

/-- R41: "While a node's effective trip level is CUT, every configured section of that node is HELD." -/
def Obligations.CutKeptByStep : Prop := ∀ s t : State, CutStands s → step s = .next t → CutStands t

/-- R135: "within each pool at most one buffer is FILLING". -/
def Obligations.OneFillingKeptByStep : Prop := ∀ s t : State, OneFilling s → step s = .next t → OneFilling t

/-- R67, R116, R118, R123, R158, R173: no store or queue ever holds more than its size. -/
def Obligations.StoresBoundedByStep : Prop := ∀ s t : State, StoresBounded s → step s = .next t → StoresBounded t

/-- R13: PASSIVE ends only at power-on reset, CONFIG only by RUN, and CONFIG is entered only by a reset. -/
def Obligations.NodeStateRules : Prop :=
  ∀ (c : Instr) (s t : State), exec c s = .next t →
    (s.ct.nodeState = .passive → (∀ a m, c ≠ .powerOnReset a m) → t.ct.nodeState = .passive)
    ∧ (s.ct.nodeState = .config → c ≠ .runWrite → t.ct.nodeState = .config)
    ∧ (t.ct.nodeState = .config → s.ct.nodeState = .config ∨ c = .nodeReset ∨ ∃ a m, c = .powerOnReset a m)

/-- R1, R7, R11, R74, R75, R175: but for power-on reset, local time never goes back, the straps and IDENT keep their values, and
the stop of beat origination and a DUPLICATE condition last; θ moves at cycle starts alone. -/
def Obligations.LastsUntilPowerOn : Prop :=
  ∀ (c : Instr) (s t : State), (∀ a m, c ≠ .powerOnReset a m) → exec c s = .next t →
    s.ct.localTime.toNat ≤ t.ct.localTime.toNat ∧ t.straps = s.straps ∧ readIdent t = readIdent s
    ∧ ((∀ now, c ≠ .cycleStart now) → t.ag.theta = s.ag.theta)
    ∧ (s.ri.stopped = true → t.ri.stopped = true)
    ∧ ∀ i : Nat, (findCond s .duplicate i).isSome → (findCond t .duplicate i).isSome

/-! ### Resets and register writes -/

/-- The values after power-on reset (R1, R7, R11, R14, R17, R19, R20, R22, R44, R52, R59, R61, R66, R73, R76, R78, R80, R81,
R83, R84, R87, R90, R94, R96, R109, R110, R111, R112, R118, R123, R125, R129, R130, R146, R147, R152, R155, R160, R161, R165,
R170, R172, R173, R174, R175, R182, R185, R187). The model's choices, where the spec gives no value: the raised marks of the
cycle's events, the waiting SET_HOLDOVER, the slots and exchange of the drive line, the SYNC, the last beat values and θ_x's
marks, the heal run and the waiting heal, the frames under way, the outstanding probe, the waiting allowance, the ring-in
buffer, the pending flip and the cell of a palette load (log entry 43), the run of idle (log entry 30), and the writes of the
PM that wait and the time of the last change of the ring mode (log entry 44); that the queue stays, that host memory keeps what
was granted before the reset (log entries 5 and 32), and that the pane reads granted before it still return, their data dropped
(log entry 37). -/
def Obligations.PowerOnResetValues : Prop :=
  ∀ (a : NodeAddr) (m : Bool) (s : State), ∃ t, exec (.powerOnReset a m) s = .next t
    ∧ t.pending = s.pending ∧ t.mem = (landGranted s).mem ∧ t.straps = ⟨a, m⟩
    ∧ ((readIdent t).toNat / 65536 = 0x7610 ∧ (readIdent t).toNat / 128 % 2 = (if m then 1 else 0)
      ∧ (readIdent t).toNat % 32 = a.val)
    ∧ (t.ct.localTime = 0 ∧ t.ct.n = 0 ∧ t.ct.period = .us250 ∧ t.ct.pIn = 30 ∧ t.ct.pCo = 50 ∧ t.ct.pIs = 210
      ∧ t.ct.lock = false ∧ t.ct.correction = 0 ∧ t.ct.late = 0 ∧ t.ct.pendingCycle = none ∧ t.ct.nodeState = .config
      ∧ t.ct.lead = 205 ∧ t.ct.limit = 3 ∧ t.ct.missed = 0 ∧ t.ct.pendingHoldover = none
      ∧ t.ct.raisedIn = false ∧ t.ct.raisedCo = false ∧ t.ct.raisedIs = false)
    ∧ (t.ag.theta = 0 ∧ t.ag.v = 0 ∧ t.ag.demand = 0 ∧ t.ag.vMax = 0 ∧ t.ag.vRev = 0 ∧ t.ag.aUp = 1 ∧ t.ag.aDown = 1
      ∧ t.ag.aStop = 65535 ∧ t.ag.lineState = .standstill)
    ∧ (∀ i : Fin 4, FreshSection t.gu.sections[i]) ∧ (∀ i : Fin 12, FreshChannel t.gu.channels[i]) ∧ FreshGear t ∧ FreshDrive t
    ∧ (∀ p : Port, t.ri.ports[p] = ⟨.dark, none, 0, none, 0, none, 0, 0, 0⟩)
    ∧ (t.ri.mode = .alone ∧ t.ri.routedAt = 0 ∧ t.ri.stopped = false ∧ t.ri.healMark = false ∧ t.ri.store = []
      ∧ t.ri.delayed = [] ∧ t.ri.beatIn = none
      ∧ t.ri.primaryTx = none ∧ (∀ p : Port, t.ri.linkTx[p] = none) ∧ FreshRing t)
    ∧ (t.tc.conds = [] ∧ FreshTrips t ∧ ∀ x : NodeAddr, t.tc.heard[x] = if x = a then some 0 else none)
    ∧ (∀ u : Fin 2, FreshStream t.cu[u]) ∧ (∀ p : Fin 6, FreshPool t.pm.pools[p]) ∧ t.pm.work = []
    ∧ FreshViews t ∧ FreshScreen t.sc ∧ t.sc.reads = s.sc.reads.map (fun _ => []) ∧ FreshWindow t
    ∧ (t.wc.winbase = 0 ∧ t.wc.run = false ∧ t.wc.resetting = false ∧ t.wc.mask = 0 ∧ t.wc.attn = 0 ∧ t.wc.currentB = false
      ∧ t.wc.publishCount = 0 ∧ t.wc.version = 1 ∧ ∀ c : Fin 16, t.wc.records[c] = none)
    ∧ t.mp = { camerasFirst := false, camLow := 8, camHigh := 64, scrLow := 32, scrUrgent := 8 }

/-- R176 with R1, R11, R13, R14, R19, R20, R22, R44, R58, R59, R61, R80, R81, R82, R90, R96, R109, R112, R130, R147, R152,
R161, R165, R175, R182, R185: what a node reset keeps and what it clears; a second one is ignored; at its end cycle 0 begins,
and a PASSIVE node stores the conditions that its table lacks. What of the ring is under way, ATTN, and the granted data writes
follow log entries 32 and 37; the inner marks that the spec gives no value follow log entries 43 and 44, the run of idle 30;
that NODE_RESET_END outside a node reset moves local time alone is the model's choice too (log entry 17). -/
def Obligations.NodeResetActs : Prop :=
  (∀ s : State, s.wc.resetting = true → exec .nodeReset s = .next s)
  ∧ (∀ s : State, s.wc.resetting = false → ∃ t, exec .nodeReset s = .next t
    ∧ t.wc.resetting = true ∧ cutOutput t = true
    ∧ t.ct.nodeState = (if s.ct.nodeState = .passive then .passive else .config)
    ∧ t.ct.localTime = s.ct.localTime ∧ t.straps = s.straps ∧ t.mem = (landGranted s).mem ∧ t.pending = s.pending
    ∧ (t.ct.period = .us250 ∧ t.ct.pIn = 30 ∧ t.ct.pCo = 50 ∧ t.ct.pIs = 210 ∧ t.ct.lock = false ∧ t.ct.correction = 0
      ∧ t.ct.late = 0 ∧ t.ct.pendingCycle = none ∧ t.ct.lead = 205 ∧ t.ct.limit = 3 ∧ t.ct.missed = 0
      ∧ t.ct.pendingHoldover = none)
    ∧ t.ag = { theta := s.ag.theta }
    ∧ t.mp = { camerasFirst := false, camLow := 8, camHigh := 64, scrLow := 32, scrUrgent := 8, screen := 0, camera0 := 0
               camera1 := 0, ringIn := 0, window := 0, ringOut := 0 }
    ∧ (t.ri.mode = s.ri.mode ∧ t.ri.stopped = s.ri.stopped ∧ t.ri.healMark = false
      ∧ RoutingStands s t ∧ FreshRing t)
    ∧ (∀ p : Port, t.ri.ports[p] = { s.ri.ports[p] with
        outstanding := none, symbolErrors := 0, crcErrors := 0, probeFailures := 0 })
    ∧ (FreshTrips t ∧ t.tc.heard = s.tc.heard
      ∧ ∀ c : Cond, c ∈ t.tc.conds ↔ c ∈ s.tc.conds ∧ (c.kind = .duplicate ∨ c.kind = .ringWrap))
    ∧ (∀ i : Fin 4, FreshSection t.gu.sections[i]) ∧ (∀ i : Fin 12, FreshChannel t.gu.channels[i]) ∧ FreshGear t ∧ FreshDrive t
    ∧ ((nowOf s : Int) < s.dlc.driveUntil → s.dlc.begun ≤ (nowOf s : Int) →
        ∃ k : Nat, t.dlc.driveUntil = s.dlc.begun + 20 * (k : Int) ∧ (nowOf s : Int) < t.dlc.driveUntil
          ∧ t.dlc.driveUntil ≤ (nowOf s : Int) + 20 ∧ t.dlc.lineFree = t.dlc.driveUntil + 400)
    ∧ (s.dlc.driveUntil ≤ (nowOf s : Int) → t.dlc.driveUntil = s.dlc.driveUntil ∧ t.dlc.lineFree = s.dlc.lineFree)
    ∧ (∀ u : Fin 2, FreshStream t.cu[u]) ∧ (∀ p : Fin 6, FreshPool t.pm.pools[p]) ∧ t.pm.work = []
    ∧ FreshViews t ∧ FreshScreen t.sc ∧ t.sc.reads = s.sc.reads.map (fun _ => []) ∧ FreshWindow t
    ∧ (t.wc.winbase = 0 ∧ t.wc.run = false ∧ t.wc.mask = 0 ∧ t.wc.attn = 0 ∧ t.wc.queue = [] ∧ t.wc.currentB = false
      ∧ t.wc.publishCount = 0 ∧ t.wc.publish = .idle ∧ t.wc.version = 1 ∧ ∀ c : Fin 16, t.wc.records[c] = none))
  ∧ (∀ (now : Time) (s : State), s.wc.resetting = true → ∃ t, exec (.nodeResetEnd now) s = .next t
    ∧ t.wc.resetting = false ∧ t.ct.n = 0 ∧ t.ct.localTime.toNat = max s.ct.localTime.toNat now.toNat
    ∧ t.ct.start = (t.ct.localTime.toNat : Int)
    ∧ t = { advance now s with ct := { (advance now s).ct with n := t.ct.n, start := t.ct.start }, tc := t.tc, wc := t.wc }
    ∧ (s.ct.nodeState ≠ .passive → t.tc = s.tc ∧ t.wc = { s.wc with resetting := false })
    ∧ (s.ct.nodeState = .passive →
        t.wc = { s.wc with resetting := false, mirror := t.wc.mirror, header := t.wc.header, queue := t.wc.queue
                           attn := t.wc.attn, messages := t.wc.messages, version := t.wc.version }
        ∧ t.tc.conds = s.tc.conds ∧ ConditionsStored (fun _ => false) 0 s t
        ∧ (∀ c ∈ s.tc.conds, s.tc.table.length + s.tc.conds.length ≤ 32 → (findEntry t (ownKey s c.kind c.index)).isSome)
        ∧ ((∀ c ∈ s.tc.conds, (findEntry s (ownKey s c.kind c.index)).isSome) →
            t.tc = s.tc ∧ t.wc = { s.wc with resetting := false })))
  ∧ ∀ (now : Time) (s : State), s.wc.resetting = false → ∃ t, exec (.nodeResetEnd now) s = .next t ∧ SlotsPassed now s t

/-- R175, R176, R183, R184, R188: the writes of the attention mask and of ATTN, the register writes that change nothing, and
the write of the base: the first one opens the window with its lowest 13 bits taken as 0, every other is ignored. That the
opening header carries version 0, and that the rewrite's own header follows it (log entry 27), and which node state and cycle
number it carries (log entry 81), are the model's choices. -/
def Obligations.RegisterWrites : Prop :=
  ∀ s : State,
    (∀ ones, exec (.attnClear ones) s = .next
      { s with wc := { s.wc with attn := s.wc.attn &&& ~~~ones,
                                 messages := messagesAfter { s.wc with attn := s.wc.attn &&& ~~~ones } } })
    ∧ (∀ m, exec (.attentionMaskWrite m) s = .next (if s.wc.resetting then s else
        { s with wc := { s.wc with mask := m, messages := messagesAfter { s.wc with mask := m } } }))
    ∧ (∀ c ∈ [Instr.runClearWrite, .resetClearWrite, .registerWriteOther .nodectlUnnamed], exec c s = .next
        (if s.wc.resetting then s else { s with wc := { s.wc with messages := messagesAfter s.wc } }))
    ∧ exec (.registerWriteOther .attnUnnamed) s = .next
        { s with wc := { s.wc with messages := messagesAfter s.wc } }
    ∧ (∀ r ∈ [OtherReg.ident, .winbaseLow, .unmapped], exec (.registerWriteOther r) s = .next s)
    ∧ ∀ v : Addr,
        (s.wc.resetting = true ∨ s.wc.winbase ≠ 0 ∨ v.toNat < 8192 → exec (.winbaseWrite v) s = .next s)
        ∧ (s.wc.resetting = false → s.wc.winbase = 0 → 8192 ≤ v.toNat → ∃ t, exec (.winbaseWrite v) s = .next t
          ∧ t.wc.winbase.toNat = v.toNat / 8192 * 8192
          ∧ t.wc.mirror = some { version := s.wc.version, stale := false }
          ∧ t.wc.header = { nodeState := s.ct.nodeState, pageB := s.wc.currentB, cycle := s.ct.n,
                            publishCount := s.wc.publishCount, version := 0, attn := s.wc.attn }
          ∧ t.wc.queue = s.wc.queue
              ++ [writeItem t .plain false 0 (headerBytes t.wc.header), writeItem t .plain false 0 (headerBytes t.wc.header)]
              ++ kibItems t .mirror false 0x1000 (mirrorBytes s.tc.table) ++ [flushItem t .mirror false]
          ∧ t = { s with wc := { s.wc with winbase := t.wc.winbase, mirror := t.wc.mirror, header := t.wc.header,
                                           queue := t.wc.queue } })

/-- R13, R88, R109, R132, R176, R187: RUN written 1 starts a node in CONFIG, its present conditions being stored, and ends a
window fault, the window being resumed by the steps of R187. That a start comes before the resumption (log entry 36), the one
order of the PM's writes (log entry 25), and the fields of the header that begins the mirror's rewrite (log entry 27), are the
model's choices. -/
def Obligations.RunStartsNode : Prop :=
  (∀ s : State, s.wc.resetting = true → exec .runWrite s = .next s)
  ∧ (∀ s : State, s.wc.resetting = false → ∃ t, exec .runWrite s = .next t
    ∧ t.wc.run = true ∧ t.wc.fault = false
    ∧ t.ct.nodeState = (if s.ct.nodeState = .config then (if s.straps.master then .online else .joining)
                        else s.ct.nodeState)
    ∧ (s.ct.nodeState = .config → t.wc.attn.getLsbD 3 = true)
    ∧ t.tc.conds = s.tc.conds.filter (fun c => decide (s.wc.fault = true → ¬ (c.kind = .window ∧ c.index = 0)))
    ∧ (s.ct.nodeState = .config →
        ConditionsStored (fun c => s.wc.fault && decide (c.kind = .window ∧ c.index = 0)) s.ct.n s t
        ∧ (∀ c ∈ s.tc.conds, s.tc.table.length + s.tc.conds.length ≤ 32 → (findEntry t (ownKey s c.kind c.index)).isSome))
    ∧ (s.ct.nodeState ≠ .config → s.wc.fault = true → ConditionGone s t .window 0)
    ∧ (s.ct.nodeState ≠ .config → s.wc.fault = false → t.tc = s.tc)
    ∧ (s.wc.fault = true → s.wc.winbase ≠ 0 → s.pm.work = [] → WindowResumed s t)
    ∧ (s.wc.fault = false → t.pm = s.pm ∧ t.wc.records = s.wc.records)
    ∧ t = { s with ct := { s.ct with nodeState := t.ct.nodeState }, tc := t.tc, pm := { s.pm with work := t.pm.work }
                   wc := t.wc })
  ∧ ∀ s : State, s.wc.resetting = false → s.wc.fault = false → s.ct.nodeState ≠ .config →
    exec .runWrite s = .next
      { s with wc := { s.wc with run := true, messages := messagesAfter { s.wc with run := true } } }

/-! ### The cycle, the line axis and the gearing computation -/

/-- R1, R2, R3, R152: the free-running cycle start. That the row before its time, or during a node reset, moves local time
alone is the model's choice (log entries 9 and 17). -/
def Obligations.FreeRunningCycleStart : Prop :=
  ∀ (now : Time) (s : State),
    (¬ CycleEnds now s → exec (.cycleStart now) s = .next (advance now s))
    ∧ (CycleEnds now s → ∃ t, exec (.cycleStart now) s = .next t
      ∧ t.ct = { (advance now s).ct with
          n := s.ct.n + 1, start := s.ct.start + (Period.ns s.ct.period : Int), raisedIn := false, raisedCo := false
          raisedIs := false, pendingCycle := none, period := t.ct.period, pIn := t.ct.pIn, pCo := t.ct.pCo
          pIs := t.ct.pIs }
      ∧ (s.ct.pendingCycle = none → t.ct.period = s.ct.period ∧ phasesOf t.ct = phasesOf s.ct)
      ∧ (∀ p, s.ct.pendingCycle = some p → s.straps.master = true ∨ p.period = s.ct.period →
          t.ct.period = p.period ∧ phasesOf t.ct = ⟨p.pIn, p.pCo, p.pIs⟩)
      ∧ (∀ p, s.ct.pendingCycle = some p → s.straps.master = false → p.period ≠ s.ct.period →
          t.ct.period = s.ct.period ∧ phasesOf t.ct = scalePhases p.period s.ct.period ⟨p.pIn, p.pCo, p.pIs⟩)
      ∧ t.ve = { s.ve with
          allowance := (s.ve.pendingAllowance.map (·.1)).getD s.ve.allowance
          quiet := (s.ve.pendingAllowance.map (·.2)).getD s.ve.quiet
          budget := (s.ve.pendingAllowance.map (·.1)).getD s.ve.allowance
          pendingAllowance := none, withdrawn := false, exhausted := t.ve.exhausted }
      ∧ (s.straps.master = false ∨ s.ct.nodeState = .config →
          t = { advance now s with ct := t.ct, ve := t.ve, gu := { s.gu with taken := none } })
      ∧ t = { advance now s with ct := t.ct, ag := t.ag, gu := t.gu, dlc := t.dlc, ri := t.ri, tc := t.tc, ve := t.ve, wc := t.wc })

/-- R7 with R8, R9 and R12 on the line master: the speed, θ, the line state and the beat queued; what a level that rises to
STOP or CUT with the line term does (R41, R42, R48); the HEAL flag (R83). That a waiting RING_HEAL ends also at a line state
that changed before HEAL was first set (log entry 49), and that a BEAT takes HEAL as it stands when it is queued (log entry 85),
are the model's choices. -/
def Obligations.LineAxisAtCycleStart : Prop :=
  ∀ (now : Time) (s : State), CycleEnds now s → s.straps.master = true → s.ct.nodeState ≠ .config →
    ∃ t, exec (.cycleStart now) s = .next t
      ∧ (lineLevel s = .cut → t.ag.demand = 0 ∧ t.ag.v = 0)
      ∧ (lineLevel s = .stop ∨ (lineLevel s ≠ .cut ∧ s.ag.lineState = .stopping) →
          t.ag.demand = 0 ∧ t.ag.v = towards s.ag.v 0 s.ag.aStop)
      ∧ (lineLevel s = .none ∨ lineLevel s = .note → s.ag.lineState ≠ .stopping →
          t.ag.demand = s.ag.demand
          ∧ (s.ag.v < s.ag.demand →
              t.ag.v = s.ag.v + min (s.ag.demand - s.ag.v) (if 0 ≤ s.ag.v then (s.ag.aUp : Int) else (s.ag.aDown : Int)))
          ∧ (s.ag.demand < s.ag.v →
              t.ag.v = s.ag.v - min (s.ag.v - s.ag.demand) (if 0 < s.ag.v then (s.ag.aDown : Int) else (s.ag.aUp : Int)))
          ∧ (s.ag.demand = s.ag.v → t.ag.v = s.ag.v))
      ∧ t.ag.theta = s.ag.theta + BitVec.ofInt 32 t.ag.v
      ∧ t.ag.lineState =
          (if s.ag.lineState = .torqueOff ∨ lineLevel s = .cut then .torqueOff
           else if s.ag.lineState = .halted then .halted
           else if s.ag.lineState = .stopping ∨ lineLevel s = .stop then (if t.ag.v = 0 then .halted else .stopping)
           else if t.ag.v ≠ 0 ∨ t.ag.demand ≠ 0 then .running else .standstill)
      ∧ t.ag = { s.ag with v := t.ag.v, demand := t.ag.demand, theta := t.ag.theta, lineState := t.ag.lineState }
      ∧ t.tc.lineTerm = lineLevel s
      ∧ t.gu.taken = some { theta := t.ag.theta, v := t.ag.v, lineState := t.ag.lineState }
      ∧ (s.ri.stopped = true → t.ri.own = s.ri.own)
      ∧ (t.ri.own.filter fun f => !isBeat f) = (s.ri.own.filter fun f => !isBeat f)
      ∧ (s.ri.stopped = false → ∃ b, OwnFrame.beat b ∈ t.ri.own ∧ (∀ b', OwnFrame.beat b' ∈ t.ri.own → b' = b)
          ∧ b.cycle = s.ct.n + 1 ∧ b.start = t.ct.start ∧ b.theta = t.ag.theta ∧ b.v = t.ag.v
          ∧ b.lineState = t.ag.lineState ∧ b.level = lineLevel s ∧ b.period = t.ct.period ∧ b.heal = t.ri.healFlag)
      ∧ LevelRises none s t ∧ TelegramSpoiled (advance now s) t
      ∧ (s.ri.heal = none → t.ri.healFlag = s.ri.healFlag ∧ t.ri.heal = none)
      ∧ (∀ h, s.ri.heal = some h →
          (t.ag.lineState = .standstill ∨ t.ag.lineState = .halted → t.ri.healFlag = true ∧ t.ri.heal = some h)
          ∧ (t.ag.lineState ≠ .standstill → t.ag.lineState ≠ .halted → t.ri.healFlag = false ∧ t.ri.heal = none
              ∧ ((∀ i : Fin 4, s.gu.sections[i].engageCell ≠ some h.cell ∧ h.cell ∉ s.gu.sections[i].disengageCells) →
                  EndsWith s t h.cell (plainResult .wrongState))))
      ∧ t.ri = { (advance now s).ri with own := t.ri.own, healFlag := t.ri.healFlag, heal := t.ri.heal }
      ∧ t.gu = { s.gu with sections := t.gu.sections, channels := t.gu.channels, taken := t.gu.taken }
      ∧ t.tc = { s.tc with lineTerm := lineLevel s }

/-- R91 and R179: the intake event samples the inputs and begins a scan; a debounced change also as its own row. That the inputs
are sampled in the order of their numbers, and their entries and bursts come in it (log entry 60), is the model's choice. What
the rows do out of their time or order, or during a node reset, is the model's choice (log entries 9, 16 and 17), and so is that
a scan counts as its reads are issued (log entry 68), with one read for each cell (log entry 79). -/
def Obligations.IntakeSamplesAndScans : Prop :=
  (∀ (now : Time) (tin : Byte) (s : State),
    (¬ IntakeComes now s → exec (.intake now tin) s = .next (advance now s))
    ∧ (IntakeComes now s → ∃ t, exec (.intake now tin) s = .next t
      ∧ t.ct = { (advance now s).ct with raisedIn := true }
      ∧ (∀ i : Fin 8, t.tc.inputs[i] = sampledInput (tin.getLsbD i.val) s.tc.inputs[i])
      ∧ (∀ i : Fin 8, findCond t .input i.val =
          if t.tc.inputs[i].tripping = s.tc.inputs[i].tripping then findCond s .input i.val
          else if t.tc.inputs[i].tripping then some ⟨.input, i.val, s.tc.inputs[i].cls⟩ else none)
      ∧ (∀ (k : TripKind) (n : Nat), k ≠ .input → findCond t k n = findCond s k n)
      ∧ InputsReported s t ∧ (t.tc.table ≠ s.tc.table → t.wc.attn.getLsbD 1 = true)
      ∧ (windowOn s = true → s.wc.scanning = false → t.wc.scanning = true ∧ t.wc.scans = s.wc.scans + 1
          ∧ ((List.finRange 16).map fun c : Fin 16 => (⟨.scan, false, windowAddr s (0x400 + 64 * c.val), []⟩ : WinItem))
              <:+ t.wc.queue)
      ∧ (windowOn s = true → s.wc.scanning = true →
          t.wc.scanning = true ∧ t.wc.scans = s.wc.scans ∧ t.wc.skippedScans = s.wc.skippedScans + 1)
      ∧ (windowOn s = false →
          t.wc.scanning = s.wc.scanning ∧ t.wc.scans = s.wc.scans ∧ t.wc.skippedScans = s.wc.skippedScans)
      ∧ LevelActs none s t ∧ TelegramCut (advance now s) t
      ∧ ((∀ i : Fin 8, s.tc.inputs[i].tripping = true → t.tc.inputs[i].tripping = true) →
          LevelRises none s t ∧ TelegramSpoiled (advance now s) t)
      ∧ t = { advance now s with ct := t.ct, gu := t.gu, dlc := t.dlc, tc := t.tc, wc := t.wc }))
  ∧ ∀ (i : Fin 8) (s : State),
    (s.tc.inputs[i].enabled = false ∨ s.tc.inputs[i].run ≤ s.tc.inputs[i].debounce → exec (.inputDebounce i) s = .next s)
    ∧ (s.tc.inputs[i].enabled = true → s.tc.inputs[i].debounce < s.tc.inputs[i].run →
      ∃ t, exec (.inputDebounce i) s = .next t
        ∧ t.tc.inputs = s.tc.inputs.set i { s.tc.inputs[i] with tripping := !s.tc.inputs[i].tripping, run := 0 }
        ∧ findCond t .input i.val =
            (if s.tc.inputs[i].tripping then none else some ⟨.input, i.val, s.tc.inputs[i].cls⟩)
        ∧ (s.tc.inputs[i].tripping = true → ConditionGone s t .input i.val)
        ∧ (s.tc.inputs[i].tripping = false → findCond s .input i.val = none →
            ConditionMet s t ⟨.input, i.val, s.tc.inputs[i].cls⟩)
        ∧ LevelRises none s t ∧ TelegramSpoiled s t
        ∧ t = { s with gu := t.gu, dlc := t.dlc, tc := t.tc, wc := t.wc })

/-- R13, R14, R15, R16, R17, R18, R19, R43: the compute event, and the gear input in every node state: on a master, and on a
node that takes or misses its beat, leaves JOINING, stays in ISOLATED or leaves it, or is PASSIVE; the entry into ISOLATED also
as its own row. What the rows do out of their time or order, or during a node reset, is the model's choice (log entries 9, 16,
17). -/
def Obligations.ComputeFormsGearInput : Prop :=
  (∀ (now lineFree : Time) (s : State),
      (¬ ComputeComes now s → exec (.compute now lineFree) s = .next (advance now s))
      ∧ (ComputeComes now s → ∃ t, exec (.compute now lineFree) s = .next t
        ∧ t.ct = { (advance now s).ct with
            raisedCo := true, lead := (s.ct.pendingHoldover.map (·.1)).getD s.ct.lead
            limit := (s.ct.pendingHoldover.map (·.2)).getD s.ct.limit, pendingHoldover := none
            nodeState := t.ct.nodeState, missed := t.ct.missed, lock := t.ct.lock }
        ∧ t = { s with ct := t.ct, gu := t.gu, dlc := t.dlc, ri := t.ri, tc := t.tc, cu := t.cu, pm := t.pm, ve := t.ve,
                       wc := t.wc }
        ∧ (effLevel s ≠ .cut → effLevel t ≠ .cut ∧ ∀ k : Fin 12, t.gu.channels[k].state = s.gu.channels[k].state)
        ∧ (RisesToStop s t → ∀ i : Fin 4, s.gu.sections[i].state = .jogging → t.gu.sections[i].jogDemand = 0)
        ∧ (s.ct.nodeState = .config → t.dlc = s.dlc ∧ t.gu.thetaX = s.gu.thetaX ∧ t.gu.delta = s.gu.delta
            ∧ t.ct.missed = s.ct.missed ∧ t.ct.lock = s.ct.lock)
        ∧ (s.straps.master = true → s.ct.nodeState ≠ .config →
            GearFormed s.ag.theta s.ag.v s t ∧ t.ct.nodeState = s.ct.nodeState ∧ t.ct.missed = s.ct.missed)
        ∧ (s.straps.master = false → s.ct.nodeState = .online ∨ s.ct.nodeState = .holdover → ∀ b, s.gu.taken = some b →
            t.ct.missed = s.ct.missed
            ∧ (s.gu.continuous = false ∨ (gearInput { s with ct := t.ct } b.theta b.v).natAbs < 16777216 →
                t.ct.nodeState = .online ∧ t.ct.lock = s.ct.lock ∧ GearFormed b.theta b.v s t)
            ∧ (s.gu.continuous = true → 16777216 ≤ (gearInput { s with ct := t.ct } b.theta b.v).natAbs →
                IsolatedNow s t))
        ∧ (s.straps.master = false → s.ct.nodeState = .online ∨ s.ct.nodeState = .holdover → s.gu.taken = none →
            s.ct.missed ≤ 255 →
            t.ct.missed = min 255 (s.ct.missed + 1)
            ∧ (t.ct.missed < t.ct.limit →
                t.ct.nodeState = .holdover ∧ GearFormed (s.gu.lastTheta + BitVec.ofInt 32 s.gu.lastV) s.gu.lastV s t)
            ∧ (t.ct.limit ≤ t.ct.missed → IsolatedNow s t))
        ∧ (s.straps.master = false → s.ct.nodeState = .joining → t.ct.missed = s.ct.missed ∧ t.ct.lock = s.ct.lock
            ∧ (s.gu.taken = none ∨ s.ri.mode = .alone ∨ s.ri.ports[inputPort s].delay = none →
                t.ct.nodeState = .joining ∧ NoGear s t)
            ∧ (∀ b, s.gu.taken = some b → s.ri.mode ≠ .alone → s.ri.ports[inputPort s].delay ≠ none →
                t.ct.nodeState = .online ∧ t.wc.attn.getLsbD 3 = true ∧ GearRestarted b.theta b.v t))
        ∧ (s.straps.master = false → s.ct.nodeState = .isolated → t.ct.lock = s.ct.lock
            ∧ (s.gu.taken = none → s.ct.missed ≤ 255 → t.ct.missed = min 255 (s.ct.missed + 1))
            ∧ (∀ b, s.gu.taken = some b → t.ct.missed = s.ct.missed)
            ∧ ((∀ b, s.gu.taken = some b → b.lineState = .running ∨ b.lineState = .stopping) →
                t.ct.nodeState = .isolated
                ∧ GearFormed (s.gu.lastTheta + BitVec.ofInt 32 (towards s.gu.lastV 0 s.ag.aStop))
                    (towards s.gu.lastV 0 s.ag.aStop) s t)
            ∧ ∀ b, s.gu.taken = some b → b.lineState = .halted ∨ b.lineState = .torqueOff ∨ b.lineState = .standstill →
                IsolationLeft b s t)
        ∧ (s.straps.master = false → s.ct.nodeState = .passive →
            t.ct.nodeState = .passive ∧ t.ct.lock = s.ct.lock ∧ t.gu.leftIsolated = false
            ∧ (s.gu.leftIsolated = true → IsolationActs s t)
            ∧ (∀ b, s.gu.taken = some b → t.ct.missed = s.ct.missed
                ∧ (s.gu.leftIsolated = false →
                    s.gu.continuous = false ∨ (gearInput { s with ct := t.ct } b.theta b.v).natAbs < 16777216 →
                    GearFormed b.theta b.v s t)
                ∧ (s.gu.leftIsolated = true
                    ∨ (s.gu.continuous = true ∧ 16777216 ≤ (gearInput { s with ct := t.ct } b.theta b.v).natAbs) →
                    GearRestarted b.theta b.v t))
            ∧ (s.gu.taken = none → s.ct.missed ≤ 255 → t.ct.missed = min 255 (s.ct.missed + 1)
                ∧ (s.gu.leftIsolated = false → GearFormed (s.gu.lastTheta + BitVec.ofInt 32 s.gu.lastV) s.gu.lastV s t)
                ∧ (s.gu.leftIsolated = true →
                    GearRestarted (s.gu.lastTheta + BitVec.ofInt 32 s.gu.lastV) s.gu.lastV t)))))
  ∧ ∀ s : State,
    (s.straps.master = false → s.ct.nodeState = .online ∨ s.ct.nodeState = .holdover → s.ct.limit ≤ s.ct.missed →
      ∃ t, exec .enterIsolated s = .next t ∧ t.ct = { s.ct with nodeState := .isolated, lock := false }
        ∧ findCond t .beatLost 0 = some ⟨.beatLost, 0, .stop⟩
        ∧ (findCond s .beatLost 0 = none → ConditionMet s t ⟨.beatLost, 0, .stop⟩)
        ∧ LevelRises none s t ∧ TelegramSpoiled s t
        ∧ t = { s with ct := t.ct, gu := t.gu, dlc := t.dlc, tc := t.tc, wc := t.wc })
    ∧ (s.straps.master = true ∨ (s.ct.nodeState ≠ .online ∧ s.ct.nodeState ≠ .holdover) ∨ s.ct.missed < s.ct.limit →
      exec .enterIsolated s = .next s)

/-- R27, R28, R30, R31, R32, R35, R36: an ENGAGING or ENGAGED section at a compute event that does not set its engage relation,
with the engage differences of joining channels, and the completion of its ENGAGE. -/
def Obligations.EngagedStages : Prop :=
  ∀ (now lineFree : Time) (s : State) (i : Fin 4), ComputeComes now s → SectionsRun s → RemaindersBelow s →
    (s.gu.sections[i].state = .engaged ∨ (s.gu.sections[i].state = .engaging ∧ s.gu.sections[i].mark = false)) →
    ∃ t, exec (.compute now lineFree) s = .next t
      ∧ (let x := s.gu.sections[i]
         let y := t.gu.sections[i]
         let p : Int := t.gu.delta * x.n + (x.r : Int)
         (x.m : Int) * y.q ≤ p ∧ p < (x.m : Int) * y.q + (x.m : Int) ∧ (y.r : Int) = p - y.q * (x.m : Int)
         ∧ y.phi = x.phi + BitVec.ofInt 32 y.q ∧ y.offA = towards x.offA x.offT x.trimStep
         ∧ (y.state = .engaging ∨ y.state = .engaged)
         ∧ y = { x with q := y.q, r := y.r, phi := y.phi, offA := y.offA, state := y.state, engageCell := y.engageCell }
         ∧ (x.state = .engaged → y.state = .engaged ∧ y.engageCell = x.engageCell)
         ∧ (x.state = .engaging →
             (y.state = .engaged ↔ ∀ k : Fin 12, s.gu.channels[k].state = .active → s.gu.channels[k].sect = some i →
               t.gu.channels[k].c = 0)
             ∧ (y.state = .engaging → y.engageCell = x.engageCell)
             ∧ (y.state = .engaged → y.engageCell = none ∧ ∀ e, OnlyEngage s i e →
                 EndsWith s t e (resultOk (le32 x.relPhi ++ leBytes 2 x.relR)))))
      ∧ ∀ k : Fin 12, s.gu.channels[k].sect = some i →
        (let x := s.gu.sections[i]
         let y := t.gu.sections[i]
         let c := s.gu.channels[k]
         let d := t.gu.channels[k]
         let step : Int := max (-(x.maxStep : Int)) (min (x.maxStep : Int) (c.c.tdiv (c.cRem : Int)))
         d.offA = towards c.offA c.offT x.trimStep
         ∧ (c.state = .active → c.join = false →
             d.c = c.c - step ∧ d.cRem = max (c.cRem - 1) 1 ∧ d.c.natAbs ≤ c.c.natAbs ∧ 0 ≤ d.c * c.c
             ∧ d.s = y.phi + BitVec.ofInt 32 (y.offA + d.offA + d.w + d.c) ∧ d.w = c.w ∧ d.s1 = c.s ∧ d.s2 = c.s1
             ∧ d.state = .active)
         ∧ (c.state = .active → c.join = true →
             d.w + d.c = (c.hold - (y.phi + BitVec.ofInt 32 (y.offA + d.offA))).toInt
             ∧ d.w % 1048576 = 0 ∧ -524288 ≤ d.c ∧ d.c < 524288 ∧ d.cRem = x.k ∧ d.join = false ∧ d.s = c.hold
             ∧ d.s1 = c.s ∧ d.s2 = c.s1 ∧ d.state = .active))

/-- R31, R38, R40, R41, R42: the jog and release ramps, held sections, and channels that follow their drives; the actions of
STOP and CUT at a compute event at which the level stands: the jog demand becomes 0 at STOP, and below STOP it stands. The level
can fall within the event, behind the gear input, only where a RING_WRAP condition or own entry has another class than its NOTE
(R86), which only a burst of another node in this node's name makes (log entry 62): there alone a demand may be 0 below STOP.
That a channel without a valid reply keeps its setpoint after CUT too is the model's choice (log entry 55). -/
def Obligations.RampStages : Prop :=
  (∀ (now lineFree : Time) (s : State), ComputeComes now s → s.ct.nodeState ≠ .config →
    ∃ t, exec (.compute now lineFree) s = .next t
      ∧ (effLevel t = .stop ∨ effLevel t = .cut → ∀ i : Fin 4, t.gu.sections[i].state = .jogging →
          t.gu.sections[i].jogDemand = 0)
      ∧ (effLevel t = .cut →
          (∀ i : Fin 4, t.gu.sections[i].state = (if s.gu.sections[i].state = .unset then .unset else .held))
          ∧ ∀ k : Fin 12,
            (let c := s.gu.channels[k]
             let d := t.gu.channels[k]
             (c.state ≠ .free → d.state ≠ .active ∧ d.hold = c.a ∧ d.s = (if c.fresh then c.a else c.s) ∧ d.s1 = c.s)
             ∧ (c.state = .active → d.state = .tracking ∧ d.w = 0 ∧ d.c = 0 ∧ d.cRem = 1 ∧ d.join = false))))
  ∧ ∀ (now lineFree : Time) (s : State), ComputeComes now s → SectionsRun s →
    ∃ t, exec (.compute now lineFree) s = .next t
      ∧ (∀ i : Fin 4,
          (let x := s.gu.sections[i]
           let y := t.gu.sections[i]
           let stops := fun u : State => effLevel u = .stop ∨ effLevel u = .cut
           (x.state = .jogging → (y.jogDemand = x.jogDemand ∨ y.jogDemand = 0) ∧ (stops t → y.jogDemand = 0)
              ∧ (¬ stops t → ¬ stops s ∨ WrapsNote s → y.jogDemand = x.jogDemand)
              ∧ y.jogSpeed = towards x.jogSpeed y.jogDemand x.g
              ∧ y.state = (if y.jogSpeed = 0 ∧ y.jogDemand = 0 then .held else .jogging))
           ∧ (x.state = .releasing → y.u = towards x.u 0 x.g ∧ y.state = (if y.u = 0 then .held else .releasing))
           ∧ (x.state = .jogging ∨ x.state = .releasing →
               (y.state = .held → y.disengageCells = [] ∧ ∀ e, OnlyDisengage s i e → EndsWith s t e (plainResult .ok))
               ∧ (y.state ≠ .held → y.disengageCells = x.disengageCells)
               ∧ y = { x with state := y.state, jogDemand := y.jogDemand, jogSpeed := y.jogSpeed, u := y.u
                              disengageCells := y.disengageCells })
           ∧ (x.state = .held → y = x) ∧ (x.state = .unset → y = x))
          ∧ ∀ k : Fin 12, s.gu.channels[k].state = .active → s.gu.channels[k].sect = some i →
            (let x := s.gu.sections[i]
             let y := t.gu.sections[i]
             let c := s.gu.channels[k]
             let d := t.gu.channels[k]
             (x.state = .jogging → d.s = c.s + BitVec.ofInt 32 y.jogSpeed ∧ (y.state = .held → d.hold = d.s))
             ∧ (x.state = .releasing → d.s = c.s + BitVec.ofInt 32 y.u ∧ (y.state = .held → d.hold = d.s))
             ∧ (x.state = .held → d.s = c.hold ∧ d.hold = c.hold)))
      ∧ ∀ k : Fin 12, s.gu.channels[k].state = .tracking ∨ s.gu.channels[k].state = .faulted →
          t.gu.channels[k].s = (if s.gu.channels[k].fresh then s.gu.channels[k].a else s.gu.channels[k].s)
          ∧ t.gu.channels[k].state = s.gu.channels[k].state ∧ t.gu.channels[k].a = s.gu.channels[k].a

/-- R34, R35, R36: the engage relation of a section whose engage mark is set, the engage differences of its ACTIVE channels,
and the ENGAGE that completes at once. -/
def Obligations.EngageRelation : Prop :=
  ∀ (now lineFree : Time) (s : State) (i : Fin 4), ComputeComes now s → SectionsRun s → RemaindersBelow s →
    s.gu.sections[i].state = .engaging → s.gu.sections[i].mark = true →
    ∃ t, exec (.compute now lineFree) s = .next t
      ∧ (let x := s.gu.sections[i]
         let y := t.gu.sections[i]
         let p : Int := ((t.gu.thetaX - x.base).toNat : Int) * x.n
         ∃ f : Int, (x.m : Int) * f ≤ p ∧ p < (x.m : Int) * f + (x.m : Int)
           ∧ y.phi = BitVec.ofInt 32 f ∧ (y.r : Int) = p - f * (x.m : Int) ∧ y.q = 0 ∧ y.mark = false
           ∧ y.relPhi = y.phi ∧ y.relR = y.r
           ∧ y = { x with phi := y.phi, r := y.r, q := y.q, mark := y.mark, relPhi := y.relPhi, relR := y.relR, state := y.state
                          engageCell := y.engageCell }
           ∧ y.offA = x.offA ∧ (y.state = .engaging ∨ y.state = .engaged)
           ∧ (y.state = .engaged ↔ ∀ k : Fin 12, s.gu.channels[k].state = .active → s.gu.channels[k].sect = some i →
               t.gu.channels[k].c = 0)
           ∧ (y.state = .engaging → y.engageCell = x.engageCell)
           ∧ (y.state = .engaged → y.engageCell = none ∧ ∀ e, OnlyEngage s i e →
               EndsWith s t e (resultOk (le32 y.phi ++ leBytes 2 y.r))))
      ∧ ∀ k : Fin 12, s.gu.channels[k].sect = some i →
        (let x := s.gu.sections[i]
         let y := t.gu.sections[i]
         let c := s.gu.channels[k]
         let d := t.gu.channels[k]
         d.offA = c.offA
         ∧ (c.state = .active →
             d.w + d.c = (c.hold - (y.phi + BitVec.ofInt 32 (x.offA + c.offA))).toInt
             ∧ d.w % 1048576 = 0 ∧ -524288 ≤ d.c ∧ d.c < 524288 ∧ d.cRem = x.k ∧ d.join = false ∧ d.s = c.hold))

/-- R51, R152, R182, R189: the issue event with the status page that its publish writes, the SYNC that follows it, and the quiet
window. What the rows do out of their time or order, or during a node reset, is the model's choice (log entries 9 and 17), and
so are the idle line of the operand (log entry 35) and the order of the page's bytes where 11.5 leaves it open, among them the
missed-slot byte 0 of an address outside the present set (log entry 39), the line trip level last formed, which is that of the
last cycle start (log entry 88), the LATE mark of a channel made FREE (log entry 70), and that the new SYNC takes the place of
one that still waits (log entry 83). -/
def Obligations.IssueSyncAndQuietWindow : Prop :=
  (∀ (now : Time) (s : State),
    (¬ IssueComes now s → exec (.issue now) s = .next (advance now s))
    ∧ (IssueComes now s → ∃ t, exec (.issue now) s = .next t
      ∧ t.ct = { (advance now s).ct with raisedIs := true }
      ∧ (s.ct.nodeState = .config → t.dlc = s.dlc ∧ t.gu = s.gu)
      ∧ (s.ct.nodeState ≠ .config → t.dlc.slots = [] ∧ t.dlc.exchange = none ∧ t.dlc.busyStart = false
          ∧ t.dlc.contention = s.dlc.contention
          ∧ ((nowOf (advance now s) : Int) < s.dlc.driveUntil → s.dlc.telegram.head?.any (fun b => b ≠ 0) = true →
              s.dlc.begun ≤ (nowOf (advance now s) : Int) → ∃ n : Nat, t.dlc.telegram = s.dlc.telegram.take n
                ∧ t.dlc.driveUntil = s.dlc.begun + 200 * (n : Int) ∧ (nowOf (advance now s) : Int) < t.dlc.driveUntil
                ∧ t.dlc.driveUntil ≤ (nowOf (advance now s) : Int) + 200 ∧ t.dlc.lineFree = t.dlc.driveUntil + 400)
          ∧ (s.dlc.driveUntil ≤ (nowOf (advance now s) : Int) → t.dlc.telegram = s.dlc.telegram
              ∧ t.dlc.driveUntil = s.dlc.driveUntil ∧ t.dlc.lineFree = s.dlc.lineFree)
          ∧ t.dlc.sync = some { cycle := s.ct.n.setWidth 16, since := (nowOf (advance now s) : Int) }
          ∧ t.dlc.late = s.dlc.late + BitVec.ofNat 32 (s.dlc.slots.length + (if s.dlc.exchange.isSome then 1 else 0))
          ∧ ∀ k : Fin 12,
            (let stopped := (s.dlc.slots.any fun d => decide (d.channel = k))
               || s.dlc.exchange.any fun x => decide (x.slot.channel = k)
             t.gu.channels[k] = { s.gu.channels[k] with
               late := s.gu.channels[k].late || stopped
               hist0 := if stopped then .notSent else s.gu.channels[k].hist0 }))
      ∧ (∀ k : Fin 12, t.gu.channels[k] =
          { s.gu.channels[k] with late := t.gu.channels[k].late, hist0 := t.gu.channels[k].hist0 })
      ∧ t.gu = { s.gu with channels := t.gu.channels }
      ∧ (windowOn s = true → s.wc.publish = .idle →
          t.wc = { s.wc with publish := .page s.ct.n, queue := t.wc.queue }
          ∧ ∃ image, PageShows t (s.wc.publishCount + 1) image
            ∧ t.wc.queue = s.wc.queue
                ++ ([0, 1, 2, 3].map fun i : Nat => (⟨.page, true,
                    windowAddr s ((if s.wc.currentB then 0x0800 else 0x0C00) + 256 * i), field image (256 * i) 256⟩ : WinItem))
                ++ [flushItem s .page true])
      ∧ (windowOn s = true → s.wc.publish ≠ .idle →
          t.wc = { s.wc with skippedPublishes := s.wc.skippedPublishes + 1 })
      ∧ (windowOn s = false → t.wc = s.wc)
      ∧ t = { advance now s with ct := t.ct, gu := t.gu, dlc := t.dlc, wc := t.wc }))
  ∧ (∀ (now : Time) (idle : Bool) (s : State),
    (let T : Int := (nowOf (advance now s) : Int)
     (s.dlc.sync = none → exec (.sync now idle) s = .next (advance now s))
     ∧ ∀ p, s.dlc.sync = some p →
      (let sent (n : Word) : State := { advance now s with dlc := { s.dlc with
          sync := none, lastSync := some p.cycle, contention := n, begun := T, driveUntil := T + 1200, lineFree := T + 1600
          telegram := [0] ++ beBytes 2 p.cycle.toNat ++ [0]
            ++ beBytes 2 (crc16 ([0] ++ beBytes 2 p.cycle.toNat ++ [0])).toNat } }
       exec (.sync now idle) s = .next
        (if idle = true ∧ s.dlc.lineFree ≤ T then sent s.dlc.contention
         else if p.since + 5000 ≤ T then sent (s.dlc.contention + 1)
         else advance now s))))
  ∧ ∀ (now : Time) (s : State), exec (.quietWindowStart now) s = .next
      (if s.ct.start + (Period.ns s.ct.period : Int) - 1000 * (s.ve.quiet : Int) ≤ (nowOf (advance now s) : Int) then
        { advance now s with ve := { s.ve with withdrawn := true } }
       else advance now s)

/-- R2 to R6, R13, R61, R64, R69, R72, R74, R75, R82, R99, R102, R104, R152: a beat that is late, that opens the next cycle, or
that falls into the current one before its compute event, with the period it adopts, the duplicate finding, and the
reconciliation it starts; a foreign beat on the line master; a beat that is not the node's to take. What a node reset makes of a
beat (log entry 9), that CONFIG counts none as late, what the correction starts from and when a stamped slot is a finding (log
entry 33), which events are raised at once (log entry 47), that PASSIVE comes first (log entry 51), that a foreign beat with
DUPLICATE 1 present is reported no more (log entry 86), and that a frame which began before a change of the ring mode is lost
(log entry 12) are the model's choices. A beat with a code outside its table is left out (log entry 82), and one of another
length is taken by its layout (log entry 91). -/
def Obligations.BeatArrives : Prop :=
  ∀ (sd now : Time) (tin : Byte) (lineFree : Time) (h : FrameHead) (b : Beat) (s : State),
    (¬ OnPrimary s sd → exec (.beatArrival sd now tin lineFree h b) s = .next (advance now s).ignoredInput)
    ∧ (OnPrimary s sd → ¬ (Passes s sd h ∧ h.dest = 63) ∨ s.wc.resetting = true →
      exec (.beatArrival sd now tin lineFree h b) s = .next (advance now s))
    ∧ (Passes s sd h → h.dest = 63 → s.wc.resetting = false → s.ct.nodeState = .config →
      exec (.beatArrival sd now tin lineFree h b) s = .next
        { advance now s with ri := { (advance now s).ri with beatIn := none } })
    ∧ (Passes s sd h → h.dest = 63 → s.wc.resetting = false → s.ct.nodeState ≠ .config → s.straps.master = true →
      ∃ t, exec (.beatArrival sd now tin lineFree h b) s = .next t ∧ t.ri.stopped = true
        ∧ (∀ q, OwnFrame.beat q ∉ t.ri.own) ∧ (findCond t .duplicate 1).isSome
        ∧ t.ri = { (advance now s).ri with
            stopped := true, beatIn := none, healMark := s.ri.healMark || b.heal
            own := s.ri.own.filter fun f => !isBeat f }
        ∧ (findCond s .duplicate 1 = none → ConditionMet s t ⟨.duplicate, 1, .cut⟩)
        ∧ (findCond s .duplicate 1 ≠ none → t.tc = s.tc ∧ t.wc = s.wc)
        ∧ LevelRises none s t ∧ TelegramSpoiled (advance now s) t
        ∧ t = { s with ct := (advance now s).ct, gu := t.gu, dlc := t.dlc, ri := t.ri, tc := t.tc, wc := t.wc })
    ∧ (∀ (tr : Word) (dup : Bool),
      Passes s sd h → h.dest = 63 → s.wc.resetting = false → s.ct.nodeState ≠ .config → s.straps.master = false →
      (∃ stamped found, s.ri.beatIn = some { sd := sd.toNat, transit := tr, stamped := stamped, duplicate := found }
          ∧ dup = (found || (stamped && decide (s.ct.nodeState ≠ .passive))))
        ∨ ((∀ x, s.ri.beatIn = some x → x.sd ≠ sd.toNat) ∧ tr = ownTransit s b.transit ∧ dup = false) →
      ∃ t, exec (.beatArrival sd now tin lineFree h b) s = .next t ∧ t.ri.beatIn = none
        ∧ t = { s with ct := t.ct, gu := t.gu, dlc := t.dlc, ri := t.ri, tc := t.tc, cu := t.cu, pm := t.pm, ve := t.ve,
                       wc := t.wc }
        ∧ (dup = true → t.ct.nodeState = .passive ∧ (findCond t .duplicate 0).isSome
            ∧ ((∀ c, findCond s .duplicate 0 = some c → c.cls = .cut) → effLevel t = .cut)
            ∧ (s.ct.nodeState = .isolated → findCond t .beatLost 0 = none))
        ∧ (let S : Int := (sd.toNat : Int) - (tr.toNat : Int) - (b.lateness.toNat : Int)
           let T : Int := (nowOf (advance now s) : Int)
           (S + 1000 * (s.ct.pCo : Int) ≤ T ∨ (b.cycle ≠ s.ct.n ∧ b.cycle ≠ s.ct.n + 1 ∧ s.ct.lock = true)
              ∨ (b.cycle = s.ct.n ∧ s.ct.raisedCo = true) →
            t.ct = { (advance now s).ct with late := s.ct.late + 1, nodeState := t.ct.nodeState }
            ∧ LevelActs none s t ∧ TelegramCut (advance now s) t
            ∧ (dup = false → t = { advance now s with
                ct := { (advance now s).ct with late := s.ct.late + 1 }
                ri := { (advance now s).ri with beatIn := none, healMark := s.ri.healMark || b.heal } }))
           ∧ (T < S + 1000 * (s.ct.pCo : Int) →
              (b.cycle = s.ct.n ∧ s.ct.raisedCo = false) ∨ b.cycle = s.ct.n + 1 ∨ (s.ct.lock = false ∧ b.cycle ≠ s.ct.n) →
            t.ct.n = b.cycle ∧ t.ct.start = S ∧ t.ct.missed = 0 ∧ t.ct.late = s.ct.late ∧ t.ct.period = b.period
            ∧ t.gu.taken = some { theta := b.theta, v := b.v.toInt, lineState := b.lineState }
            ∧ t.tc.lineTerm = b.level ∧ t.tc.lineState = b.lineState ∧ t.ct.nodeState ≠ .holdover
            ∧ (t.ve.withdrawn = true ↔ S + (Period.ns b.period : Int) - 1000 * (t.ve.quiet : Int) ≤ T)
            ∧ (T < S + 1000 * (t.ct.pCo : Int) → (b.cycle = s.ct.n → s.ct.raisedIn = true) →
                (b.cycle ≠ s.ct.n → s.ct.raisedIn = true ∧ s.ct.raisedCo = true ∧ s.ct.raisedIs = true
                  ∧ T < S + 1000 * (t.ct.pIn : Int)) →
                LevelActs none s t ∧ TelegramCut (advance now s) t
                ∧ (dup = false ∨ s.ct.nodeState ≠ .isolated → LevelRises none s t ∧ TelegramSpoiled (advance now s) t)
                ∧ t.cu = s.cu ∧ t.pm = s.pm
                ∧ t.ri = { (advance now s).ri with beatIn := none, healMark := s.ri.healMark || b.heal }
                ∧ t.ct = { (advance now s).ct with
                    n := b.cycle, start := S, missed := 0, lock := true, period := b.period, pIn := t.ct.pIn, pCo := t.ct.pCo
                    pIs := t.ct.pIs, correction := t.ct.correction, pendingCycle := t.ct.pendingCycle
                    nodeState := t.ct.nodeState, raisedIn := t.ct.raisedIn, raisedCo := t.ct.raisedCo
                    raisedIs := t.ct.raisedIs }
                ∧ t.gu = { s.gu with
                    sections := t.gu.sections, channels := t.gu.channels, taken := t.gu.taken
                    leftIsolated := s.gu.leftIsolated || (dup && decide (s.ct.nodeState = .isolated)) }
                ∧ t.ve = { s.ve with
                    allowance := t.ve.allowance, quiet := t.ve.quiet, budget := t.ve.budget
                    pendingAllowance := t.ve.pendingAllowance, withdrawn := t.ve.withdrawn, exhausted := t.ve.exhausted }
                ∧ t.tc = { s.tc with
                    lineTerm := b.level, lineState := b.lineState, conds := t.tc.conds, table := t.tc.table
                    queue := t.tc.queue, overflows := t.tc.overflows, replacements := t.tc.replacements
                    suppressed := t.tc.suppressed, reconciliations := t.tc.reconciliations }
                ∧ (dup = false → t.tc.conds = s.tc.conds
                    ∧ ((∀ e ∈ s.tc.table, ¬ Contradicted s b e) →
                        t.tc = { s.tc with lineTerm := b.level, lineState := b.lineState }
                        ∧ (s.ct.nodeState ≠ .holdover → ¬ RisesToCut s t → t.wc = s.wc))))
            ∧ (T < S + 1000 * (t.ct.pCo : Int) → t.ct.lock = true
                ∧ (s.ct.raisedCo = true ∨ b.cycle = s.ct.n → dup = false →
                    t.ct.nodeState = if s.ct.nodeState = .holdover then .online else s.ct.nodeState))
            ∧ (b.cycle = s.ct.n → t.ct.correction = (if s.ct.lock then S - s.ct.start else 0)
                ∧ phasesOf t.ct = adoptedPhases s.ct.period b.period (phasesOf s.ct)
                ∧ t.ct.pendingCycle = s.ct.pendingCycle
                ∧ (t.ve.allowance = s.ve.allowance ∧ t.ve.quiet = s.ve.quiet ∧ t.ve.budget = s.ve.budget)
                ∧ (s.ct.raisedIn = true → t.ct.raisedIn = true))
            ∧ (b.cycle ≠ s.ct.n →
                (s.ct.raisedCo = true → t.ct.correction =
                  if s.ct.lock then S - (s.ct.start + (Period.ns s.ct.period : Int)) else 0)
                ∧ phasesOf t.ct = adoptedPhases s.ct.period b.period (startPhases s.ct) ∧ t.ct.pendingCycle = none
                ∧ t.ve.allowance = (s.ve.pendingAllowance.map (·.1)).getD s.ve.allowance
                ∧ t.ve.quiet = (s.ve.pendingAllowance.map (·.2)).getD s.ve.quiet
                ∧ t.ve.budget = t.ve.allowance ∧ t.ve.pendingAllowance = none
                ∧ (T < S + 1000 * (t.ct.pIn : Int) → t.ct.raisedIn = false ∧ t.ct.raisedCo = false ∧ t.ct.raisedIs = false))
            ∧ (∀ e ∈ t.tc.table, ¬ Contradicted s b e)
            ∧ ((∀ e ∈ s.tc.table, ¬ Contradicted s b e) → t.tc.reconciliations = s.tc.reconciliations)
            ∧ (TripTableKept s → b.cycle = s.ct.n → dup = false → t.tc.reconciliations = s.tc.reconciliations
                + BitVec.ofNat 32 (s.tc.table.filter fun e => decide (Contradicted s b e)).length)
            ∧ (TripTableKept s → ∀ e ∈ s.tc.table, e.key.source ≠ s.straps.address → ¬ Contradicted s b e →
                e.latched = false ∨ e.cls ≠ .note → e.age + 2 < 2048 →
                ∃ f ∈ t.tc.table, f = { e with age := f.age }))))

/-! ### Trips -/

/-- R61, R69, R87, R89, R93, R94, R95, R96, R97, R98, R190: a delivered burst and its sequence window, with the full table; the
refresh of the oldest own entry at a compute event; the expiry of remote entries. What a node reset makes of a burst (log entry
9), that a payload source above 31 is out of range (log entry 8), that a burst of another node in this node's name is taken as
any other (log entry 62), that one updated entry moves the version by one (log entry 87), and that a frame which began before a
change of the ring mode is lost (log entry 12), are the model's choices. -/
def Obligations.BurstsAndExpiry : Prop :=
  (∀ (d : Delivered Burst) (s : State),
    (¬ OnPrimary s d.sd → exec (.trip d) s = .next s.ignoredInput)
    ∧ (OnPrimary s d.sd →
      ¬ (Passes s d.sd d.toFrameHead ∧ d.dest = 63) ∨ s.wc.resetting = true ∨ 32 ≤ d.body.source.toNat
        ∨ tripKindOf d.body.kind = none ∨ classOf d.body.cls = none ∨ burstStateOf d.body.state = none
        ∨ (∀ kind, tripKindOf d.body.kind = some kind → kind.indices ≤ d.body.index.toNat) →
      exec (.trip d) s = .next s)
    ∧ ∀ (src : NodeAddr) (kind : TripKind) (cls : TripClass) (st : BurstState),
      Passes s d.sd d.toFrameHead → d.dest = 63 → s.wc.resetting = false →
      d.body.source.toNat = src.val → tripKindOf d.body.kind = some kind → d.body.index.toNat < kind.indices →
      classOf d.body.cls = some cls → burstStateOf d.body.state = some st →
      (∀ p, d.body.flags.getLsbD 0 = false → s.tc.heard[src] = some p →
        (d.body.sequence = p → exec (.trip d) s = .next { s with tc := { s.tc with duplicates := s.tc.duplicates + 1 } })
        ∧ (128 ≤ (d.body.sequence - p).toNat →
          exec (.trip d) s = .next { s with tc := { s.tc with stale := s.tc.stale + 1 } }))
      ∧ (d.body.flags.getLsbD 0 = true ∨ s.tc.heard[src] = none
          ∨ (∃ p, s.tc.heard[src] = some p ∧ d.body.sequence ≠ p ∧ (d.body.sequence - p).toNat < 128) →
        ∃ t, exec (.trip d) s = .next t ∧ t.tc.accepted = s.tc.accepted + 1
          ∧ t.tc.heard = s.tc.heard.set src (some d.body.sequence) ∧ t.tc.conds = s.tc.conds
          ∧ (let key : Key := ⟨src, kind, d.body.index.toNat⟩
             let new : TripEntry :=
               { key := key, cls := cls, latched := decide (st = .latched), firstCycle := d.body.cycle
                 firstPos := if d.body.flags.getLsbD 1 then some d.body.position else none, lastChange := d.body.cycle
                 count := d.body.count.toNat, seq := some d.body.sequence, age := 0 }
             (st ≠ .cleared → (findEntry s key).isSome ∨ s.tc.table.length < 32 →
              (∃ e, findEntry t key = some e
                ∧ (findEntry s key = none → e = new)
                ∧ ∀ e0, findEntry s key = some e0 → e = { new with firstCycle := e0.firstCycle, firstPos := e0.firstPos })
              ∧ ∀ k, k ≠ key → findEntry t k = findEntry s k)
             ∧ (st = .cleared → src ≠ s.straps.address → findEntry t key = none)
             ∧ (st = .cleared → findEntry s key = none → t.tc.table = s.tc.table)
             ∧ (let kept := s.tc.table.filter fun e => decide (e.key ≠ key)
                st = .cleared → findEntry s key ≠ none → (∀ e ∈ kept, e ∈ t.tc.table)
                ∧ (src ≠ s.straps.address →
                    (unstored s = [] → t.tc.table = kept ∧ t.tc.queue = s.tc.queue)
                    ∧ ∀ c rest, TripTableKept s → unstored s = c :: rest →
                        t.tc.table = kept ++ [entryOf s s.ct.n c]
                        ∧ BurstQueued s t (burstOf s.ct.n (entryOf s s.ct.n c))))
             ∧ (st ≠ .cleared → findEntry s key = none → 32 ≤ s.tc.table.length →
                (cls = .note ∨ (∀ e ∈ s.tc.table, e.latched = false ∨ e.cls ≠ .note) →
                  t.tc.table = s.tc.table ∧ t.tc.overflows = s.tc.overflows + 1)
                ∧ ∀ pre old post, cls ≠ .note → TripTableKept s → s.tc.table = pre ++ old :: post → old.latched = true →
                  old.cls = .note → (∀ e ∈ pre, e.latched = false ∨ e.cls ≠ .note) →
                  t.tc.table = pre ++ post ++ [new] ∧ t.tc.replacements = s.tc.replacements + 1
                  ∧ t.tc.overflows = s.tc.overflows
                  ∧ (old.key.source ≠ s.straps.address → t.tc.queue = s.tc.queue)
                  ∧ (old.key.source = s.straps.address → s.ct.nodeState ≠ .config →
                      (∃ q ∈ t.tc.queue, q = { key := old.key, cls := old.cls, state := .cleared, refresh := false
                                               cycle := s.ct.n, pos := old.firstPos, count := 0 })
                      ∨ (16 ≤ s.tc.queue.length ∧ (∀ q ∈ s.tc.queue, q.key ≠ old.key) ∧ t.tc.queue = s.tc.queue
                          ∧ t.tc.suppressed = s.tc.suppressed + 1))))
          ∧ (TripTableKept s → st ≠ .cleared → t.tc.replacements = s.tc.replacements → TableShown s t)
          ∧ t.tc = { s.tc with
              accepted := t.tc.accepted, heard := t.tc.heard, table := t.tc.table, queue := t.tc.queue
              suppressed := t.tc.suppressed, overflows := t.tc.overflows, replacements := t.tc.replacements }
          ∧ LevelRises none s t ∧ TelegramSpoiled s t
          ∧ t = { s with gu := t.gu, dlc := t.dlc, tc := t.tc, wc := t.wc }))
  ∧ (∀ (i : Fin 8) (s : State),
      (let x := s.tc.inputs[i]
       x.enabled = true → x.debounce < x.run → x.tripping = false → s.ct.nodeState ≠ .config → 32 ≤ s.tc.table.length →
        findEntry s (ownKey s .input i.val) = none → ∃ t, exec (.inputDebounce i) s = .next t
          ∧ findCond t .input i.val = some ⟨.input, i.val, x.cls⟩
          ∧ OwnStored s t (entryOf s s.ct.n ⟨.input, i.val, x.cls⟩)
          ∧ x.cls.level.code ≤ (effLevel t).code))
  ∧ (∀ (now lineFree : Time) (s : State), ComputeComes now s → TripTableKept s →
      (let aged := fun e : TripEntry => { e with age := if e.age < 4095 then e.age + 1 else e.age }
       let gone := fun e : TripEntry => decide (e.key.source ≠ s.straps.address ∧ 2048 ≤ (aged e).age)
       ∃ t, exec (.compute now lineFree) s = .next t
        ∧ t.tc.expiries = s.tc.expiries + BitVec.ofNat 32 (s.tc.table.filter gone).length
        ∧ (∀ f ∈ t.tc.table, f.key.source ≠ s.straps.address → f.age < 2048 ∧ ∃ e ∈ s.tc.table, f = aged e)
        ∧ ∀ e ∈ s.tc.table, gone e = false → e.latched = false ∨ e.cls ≠ .note →
            e.key.source ≠ s.straps.address ∨ (e.key.kind ≠ .beatLost ∧ e.key.kind ≠ .ringWrap) → aged e ∈ t.tc.table))
  ∧ (∀ (now lineFree : Time) (s : State), ComputeComes now s → s.ct.nodeState ≠ .config →
      ∃ t, exec (.compute now lineFree) s = .next t
        ∧ (s.ct.n.toNat % 16 ≠ s.straps.address.val % 16 → ∀ q ∈ t.tc.queue, q.refresh = true → q ∈ s.tc.queue)
        ∧ ∀ pre e post, s.ct.n.toNat % 16 = s.straps.address.val % 16 → t.tc.table = pre ++ e :: post →
          e.key.source = s.straps.address → (∀ f ∈ pre, f.key.source = s.straps.address → f.age < e.age) →
          (∀ f ∈ post, f.key.source = s.straps.address → f.age ≤ e.age) →
          16 ≤ t.tc.queue.length ∨ ∃ q ∈ t.tc.queue, q.key = e.key
            ∧ ((∀ p ∈ s.tc.queue, p.key ≠ e.key) → e.lastChange ≠ s.ct.n →
                q = { key := e.key, cls := e.cls, state := if e.latched then .latched else .active, refresh := true
                      cycle := e.lastChange, pos := e.firstPos, count := e.count }))
  ∧ ∀ s : State, TripTableKept s → ∃ t, exec .expiry s = .next t
    ∧ (∀ e ∈ t.tc.table, e.key.source = s.straps.address ∨ e.age < 2048)
    ∧ (∀ e ∈ s.tc.table, e.key.source = s.straps.address ∨ e.age < 2048 → e ∈ t.tc.table)
    ∧ t.tc.expiries = s.tc.expiries + BitVec.ofNat 32
        (s.tc.table.filter fun e => decide (e.key.source ≠ s.straps.address ∧ 2048 ≤ e.age)).length
    ∧ t.tc.conds = s.tc.conds ∧ t = { s with tc := t.tc, wc := t.wc }

/-! ### The drive line -/

/-- R44, R46, R47, R48, R49, R50, R51, R52, R53, R54, R55, R56, R59: the timetable of a cycle, the SETPOINT of a slot, and a
reply that is missing, aborted, invalid or valid, with the faults it shows. That a counter at or above its limit makes the
condition present (log entry 19), that a row before its time moves local time alone (log entry 17), the idle moment of the
drive line (log entry 35), what a reply does for a channel made FREE during its exchange (log entry 54), that the part's own
telegrams and a SYNC that waits hold a SETPOINT back (log entry 69), that a reply of the old drive address acts on a channel
that has a new one (log entry 58), and that one updated entry moves the version by one (log entry 87) are the model's choices.
-/
def Obligations.DriveExchange : Prop :=
  (∀ (now lineFree : Time) (s : State), ComputeComes now s → s.ct.nodeState ≠ .config →
      ∃ t, exec (.compute now lineFree) s = .next t ∧ TimetableDrawn now lineFree s t)
  ∧ (∀ (now : Time) (s : State),
    (s.dlc.exchange.isSome ∨ s.dlc.sync.isSome
        ∨ (∀ d ∈ s.dlc.slots.head?, (nowOf (advance now s) : Int) < max d.start s.dlc.lineFree) →
      exec (.setpoint now) s = .next (advance now s))
    ∧ ∀ d rest begins, s.dlc.slots = d :: rest → s.dlc.exchange = none → s.dlc.sync = none →
        begins = max d.start s.dlc.lineFree → begins ≤ (nowOf (advance now s) : Int) →
      (let c := s.gu.channels[d.channel]
       let tq := decide (c.state = .active ∧ effLevel s ≠ .cut ∧ s.ct.nodeState ≠ .passive)
       let flags := (if tq then 1 else 0) + (if d.engaged then 2 else 0) + (if d.inSync then 4 else 0)
       let body := padTo 22 ([byte d.address, byte flags] ++ be32 d.setpoint ++ beSigned 4 d.feedforward
         ++ beBytes 2 d.limit ++ beBytes 2 s.ct.n.toNat)
       exec (.setpoint now) s = .next { advance now s with
         gu := { s.gu with channels :=
           s.gu.channels.set d.channel { c with hist0 := if tq then .withTorque else .withoutTorque } }
         dlc := { s.dlc with
           slots := rest, exchange := some { slot := d, start := begins, torque := tq }, busyStart := false
           contention := if s.dlc.busyStart then s.dlc.contention + 1 else s.dlc.contention, begun := begins
           telegram := body ++ beBytes 2 (crc16 body).toNat, driveUntil := begins + 4800
           lineFree := begins + 5200, sent := s.dlc.sent + 1 } }))
  ∧ (∀ (now : Time) (bytes : List Byte) (stop : Bool) (s : State), s.dlc.exchange = none →
      exec (.replyWindowClose now) s = .next (advance now s) ∧ exec (.replyAbort now) s = .next (advance now s)
      ∧ exec (.actual now bytes stop) s = .next (advance now s))
  ∧ (∀ (now : Time) (bytes : List Byte) (stop : Bool) (s : State) (x : Exchange), s.dlc.exchange = some x →
      ((nowOf (advance now s) : Int) < x.start + 6800 → exec (.replyWindowClose now) s = .next (advance now s))
      ∧ ((nowOf (advance now s) : Int) < x.start + 4800 → exec (.replyAbort now) s = .next (advance now s))
      ∧ ((nowOf (advance now s) : Int) < x.start + 9600 → exec (.actual now bytes stop) s = .next (advance now s)))
  ∧ (∀ (now : Time) (s : State) (x : Exchange), s.dlc.exchange = some x →
      x.start + 6800 ≤ (nowOf (advance now s) : Int) → ∃ t, exec (.replyWindowClose now) s = .next t
        ∧ t.dlc = { s.dlc with exchange := none, missing := s.dlc.missing + 1 } ∧ ReplyMissed x now s t)
  ∧ (∀ (now : Time) (s : State) (x : Exchange), s.dlc.exchange = some x →
      x.start + 4800 ≤ (nowOf (advance now s) : Int) → ∃ t, exec (.replyAbort now) s = .next t
        ∧ t.dlc = { s.dlc with exchange := none, invalid := s.dlc.invalid + 1 } ∧ ReplyMissed x now s t)
  ∧ ∀ (now : Time) (bytes : List Byte) (stop : Bool) (s : State) (x : Exchange), s.dlc.exchange = some x →
      x.start + 9600 ≤ (nowOf (advance now s) : Int) →
      (stop = true ∨ bytes.length ≠ 24 ∨ bytes.drop 22 ≠ beBytes 2 (crc16 (bytes.take 22)).toNat
          ∨ (bytes.getD 0 0).toNat ≠ x.slot.address ∨ x.start + 11600 < (nowOf (advance now s) : Int) →
        ∃ t, exec (.actual now bytes stop) s = .next t
          ∧ t.dlc = { s.dlc with exchange := none, invalid := s.dlc.invalid + 1 } ∧ ReplyMissed x now s t)
      ∧ (stop = false → bytes.length = 24 → bytes.drop 22 = beBytes 2 (crc16 (bytes.take 22)).toNat →
          (bytes.getD 0 0).toNat = x.slot.address → (nowOf (advance now s) : Int) ≤ x.start + 11600 →
        ∃ t, exec (.actual now bytes stop) s = .next t
          ∧ t.dlc = { s.dlc with
              exchange := none, valid := s.dlc.valid + 1
              lineFree := max s.dlc.lineFree ((nowOf (advance now s) : Int) + 400)
              slips := (match s.dlc.lastSync with
                | none => s.dlc.slips
                | some n => if n.toNat = beValue (field bytes 8 2) then s.dlc.slips else s.dlc.slips + 1) }
          ∧ ReplyTaken x bytes now s t)

/-! ### The fibre ring -/

/-- R61, R69, R73, R76, R83, R100: the returning beat of the line master with the reconciliation it starts; NODE_MISSING and
the end of the heal run as their own rows. What a node reset makes of the beat (log entry 9), what those two rows do out of
their order (log entry 16), and that a frame which began before a change of the ring mode is lost (log entry 12), are the model's
choices. -/
def Obligations.ReturningBeatActs : Prop :=
  (∀ (d : Delivered Beat) (b : Beat) (s : State), d.body = b →
    (¬ OnPrimary s d.sd → exec (.returningBeat d) s = .next s.ignoredInput)
    ∧ (OnPrimary s d.sd →
      s.straps.master = false ∨ s.wc.resetting = true ∨ d.source ≠ byte s.straps.address.val ∨ d.dest ≠ 63 →
      exec (.returningBeat d) s = .next s)
    ∧ (OnPrimary s d.sd → s.straps.master = true → s.wc.resetting = false → d.source = byte s.straps.address.val →
      d.dest = 63 → ∃ t, exec (.returningBeat d) s = .next t
      ∧ t.ri.copyCycle = b.cycle
      ∧ (∀ e ∈ t.tc.table, ¬ Contradicted s b e)
      ∧ (TripTableKept s → ∀ e ∈ s.tc.table, e.key.source ≠ s.straps.address → ¬ Contradicted s b e →
          e.latched = false ∨ e.cls ≠ .note → e ∈ t.tc.table)
      ∧ ((∀ e ∈ s.tc.table, ¬ Contradicted s b e) → t.tc.reconciliations = s.tc.reconciliations)
      ∧ (∀ a : NodeAddr,
          t.ri.copy[a] = { stamped := decide (b.slots[a].mark = b.cycle.setWidth 8), nodeState := b.slots[a].nodeState
                           level := b.slots[a].level, entries := b.slots[a].entries.toNat, mode := b.slots[a].mode }
          ∧ t.ri.present[a] = (if b.slots[a].mark = b.cycle.setWidth 8 then some 0
              else s.ri.present[a].map fun n => if n < 255 then n + 1 else n)
          ∧ (b.slots[a].mark = b.cycle.setWidth 8 → findCond t .nodeMissing a.val = none)
          ∧ (∀ n, b.slots[a].mark ≠ b.cycle.setWidth 8 → t.ri.present[a] = some n → s.ct.limit ≤ n →
              (findCond t .nodeMissing a.val).isSome)
          ∧ ((∀ n, t.ri.present[a] = some n → n < s.ct.limit) → b.slots[a].mark ≠ b.cycle.setWidth 8 →
              findCond t .nodeMissing a.val = findCond s .nodeMissing a.val))
      ∧ (s.ri.healFlag = false → t.ri.healRun = s.ri.healRun ∧ t.ri.healFlag = false)
      ∧ (s.ri.healFlag = true → t.ri.healRun =
          if ∃ a : NodeAddr, b.slots[a].mark = b.cycle.setWidth 8
              ∧ (b.slots[a].mode = .wrapA ∨ b.slots[a].mode = .wrapB) then 0 else s.ri.healRun + 1)
      ∧ (∀ h, s.ri.heal = some h → s.ri.healFlag = true →
          (t.ri.healRun < 8 → t.ri.healFlag = true ∧ t.ri.heal = some { h with returns := h.returns + 1 })
          ∧ (8 ≤ t.ri.healRun → t.ri.healFlag = false ∧ t.ri.heal = none
              ∧ ∀ r, s.wc.records[h.cell] = some r → ∃ r', t.wc.records[h.cell] = some r'
                  ∧ r'.result = some (resultOk (leBytes 4 (h.returns + 1)))))
      ∧ t = { s with gu := t.gu, dlc := t.dlc, ri := t.ri, tc := t.tc, wc := t.wc }))
  ∧ (∀ (a : NodeAddr) (s : State),
      (∀ n, s.straps.master = true → s.ri.present[a] = some n → s.ct.limit ≤ n → ∃ t, exec (.nodeMissing a) s = .next t
        ∧ (findCond t .nodeMissing a.val).isSome ∧ t = { s with gu := t.gu, dlc := t.dlc, tc := t.tc, wc := t.wc })
      ∧ (s.straps.master = false ∨ s.ri.present[a] = none ∨ (∃ n, s.ri.present[a] = some n ∧ n < s.ct.limit) →
          exec (.nodeMissing a) s = .next s))
  ∧ ∀ s : State,
      (∀ h, s.ri.heal = some h → s.ri.healFlag = true → 8 ≤ s.ri.healRun → ∃ t, exec .healRunComplete s = .next t
        ∧ t = { s with ri := { s.ri with healFlag := false, heal := none }, wc := t.wc }
        ∧ ∀ r, s.wc.records[h.cell] = some r → ∃ r', t.wc.records[h.cell] = some r'
            ∧ r'.result = some (resultOk (leBytes 4 h.returns)))
      ∧ (s.ri.heal = none ∨ s.ri.healFlag = false ∨ s.ri.healRun < 8 → exec .healRunComplete s = .next s)

/-- R61, R78, R79, R80: when a PROBE is queued at a compute event; a PROBE is answered once, a matching PROBE_REPLY measures the
cable, and a probe fails after 100 µs. That the probe number counts when the PROBE is queued (log entry 48), the order of the
event's steps (log entry 21), and that a frame which began before a change of the ring mode is lost on either fibre (log entry
12), are the model's choices. -/
def Obligations.CableMeasurement : Prop :=
  ∀ (p : Port) (s : State),
    (∀ (sd : Time) (src : NodeAddr) (k : Byte) (turn : Word), ¬ OnPort s p sd →
      exec (.probe p sd src k) s = .next (s.ignored p) ∧ exec (.probeReply p sd k turn) s = .next (s.ignored p))
    ∧ (∀ (now lineFree : Time), ComputeComes now s → ∃ t A B, exec (.compute now lineFree) s = .next t
      ∧ t.ri.own = s.ri.own ++ A ++ B
      ∧ ∀ q : Port,
        (let x := s.ri.ports[q]
         let own := if q = portA then A else B
         let due := s.ct.nodeState ≠ .config ∧ x.state = .up ∧ x.outstanding = none
           ∧ (x.delay = none ∨ s.ct.n.toNat % 256 = 8 * s.straps.address.val)
         (due → own = [.probe q (x.probeNumber + 1)] ∧ t.ri.ports[q] = { x with probeNumber := x.probeNumber + 1 })
         ∧ (¬ due → own = [] ∧ t.ri.ports[q] = x)))
    ∧ (∀ (sd : Time) (src : NodeAddr) (k : Byte), OnPort s p sd → ∃ t, exec (.probe p sd src k) s = .next t
      ∧ OwnFrame.reply p (byte src.val) k sd.toNat ∈ t.ri.own
      ∧ (∀ d n a, OwnFrame.reply p d n a ∈ t.ri.own → OwnFrame.reply p d n a = .reply p (byte src.val) k sd.toNat)
      ∧ (∀ f, (∀ d n a, f ≠ OwnFrame.reply p d n a) → (f ∈ t.ri.own ↔ f ∈ s.ri.own))
      ∧ t = { s with ri := { s.ri with own := t.ri.own } })
    ∧ (∀ (sd : Time) (k : Byte) (turn : Word), OnPort s p sd →
        ((∀ l, s.ri.ports[p].outstanding ≠ some (k, l)) → exec (.probeReply p sd k turn) s = .next s)
        ∧ ∀ l, s.ri.ports[p].outstanding = some (k, l) → exec (.probeReply p sd k turn) s = .next
            (let x : PortRec := { s.ri.ports[p] with outstanding := none }
             let y := if l + turn.toNat ≤ sd.toNat then { x with delay := some ((sd.toNat - l - turn.toNat) / 2) }
                      else { x with probeFailures := x.probeFailures + 1 }
             { s with ri := { s.ri with ports := s.ri.ports.set p y } }))
    ∧ ∀ now : Time,
        ((∀ k l, s.ri.ports[p].outstanding = some (k, l) → nowOf (advance now s) < l + 100000) →
          exec (.probeFailed p now) s = .next (advance now s))
        ∧ ∀ k l, s.ri.ports[p].outstanding = some (k, l) → l + 100000 ≤ nowOf (advance now s) →
            exec (.probeFailed p now) s = .next
              (let x : PortRec :=
                { s.ri.ports[p] with outstanding := none, probeFailures := s.ri.ports[p].probeFailures + 1 }
               { advance now s with ri := { (advance now s).ri with ports := s.ri.ports.set p x } })

/-- R61, R64, R67, R78, R80, R81, R82, R184: the receive states of a port, the ring mode that follows them, what a change of the
mode makes of the frames under way, and RING; the ring mode at a compute event, with the heal mark. That the heal mark is tested
before a rejoin (log entry 21), and which of the frames that arrive at a change end damaged and which are lost (log entry 12), are
the model's choices. -/
def Obligations.PortStates : Prop :=
  (∀ (now lineFree : Time) (s : State), ComputeComes now s → ∃ t, exec (.compute now lineFree) s = .next t
    ∧ t.ri.healMark = false
    ∧ (let up := fun q : Port => (s.ri.ports[q].upSince.any fun u => decide (u + 100000000 ≤ nowOf (advance now s))) = true
       t.ri.mode =
        (match s.ri.mode with
         | .through => .through
         | .wrapA => if s.ri.healMark = true ∧ up portA then .through else .wrapA
         | .wrapB => if s.ri.healMark = true ∧ up portB then .through else .wrapB
         | .alone =>
           if t.ct.nodeState = .config ∨ t.ct.nodeState = .joining then .alone
           else if up portA then .wrapB else if up portB then .wrapA else .alone))
    ∧ (t.ri.mode = s.ri.mode → RoutingStands (advance now s) t
        ∧ ∀ q : Port, findCond t .ringWrap q.val = findCond s .ringWrap q.val)
    ∧ (t.ri.mode ≠ s.ri.mode → t.wc.attn.getLsbD 3 = true ∧ RoutingChanged (advance now s) t
        ∧ ∀ q : Port, (findCond t .ringWrap q.val).isSome = wrapStands t.ri.mode q))
  ∧ ∀ (p : Port) (now : Time) (s : State),
    (s.ri.ports[p].state = .dark → exec (.portDark p now) s = .next (advance now s))
    ∧ (s.ri.ports[p].state ≠ .dark → exec (.portSyncing p) s = .next s)
    ∧ (s.ri.ports[p].state ≠ .syncing → exec (.portUp p now) s = .next (advance now s))
    ∧ (s.ri.ports[p].state ≠ .dark → ∃ t, exec (.portDark p now) s = .next t
        ∧ t.ri.ports = s.ri.ports.set p { s.ri.ports[p] with
            state := .dark, upSince := none, idleRun := 0, delay := none, outstanding := none
            probeFailures := s.ri.ports[p].probeFailures + (if s.ri.ports[p].outstanding.isSome then 1 else 0) }
        ∧ (s.ct.nodeState ≠ .config → s.ct.nodeState ≠ .joining → t.ri.mode =
            (match s.ri.mode with
             | .through => if p = portA then .wrapA else .wrapB
             | .wrapA => if p = portB then .alone else .wrapA
             | .wrapB => if p = portA then .alone else .wrapB
             | .alone => .alone))
        ∧ PortMoved (advance now s) t)
    ∧ (s.ri.ports[p].state = .dark → ∃ t, exec (.portSyncing p) s = .next t
        ∧ t.ri.ports = s.ri.ports.set p { s.ri.ports[p] with state := .syncing, idleRun := 0 }
        ∧ (s.ct.nodeState ≠ .config → s.ct.nodeState ≠ .joining → t.ri.mode = s.ri.mode)
        ∧ PortMoved s t)
    ∧ (s.ri.ports[p].state = .syncing → ∃ t, exec (.portUp p now) s = .next t
        ∧ t.ri.ports = s.ri.ports.set p
            { s.ri.ports[p] with state := .up, upSince := some (nowOf (advance now s)), idleRun := 64 }
        ∧ (s.ct.nodeState ≠ .config → s.ct.nodeState ≠ .joining → t.ri.mode = s.ri.mode)
        ∧ PortMoved (advance now s) t)

/-- R61, R62, R64, R65, R70, R71, R72, R74, R81: what becomes of an arriving frame once its header is in; and, as time passes,
the slot of this node in a BEAT on its way out, and the one in a BEAT that arrives. At which moment of its 64 ns a slot is read
or written, and that the passing is brought up to date by the next timed row (log entry 33), are the model's choices. -/
def Obligations.FramesRepeated : Prop :=
  (∀ (now : Time) (s : State), SlotsPassed now s (advance now s))
  ∧ ∀ (sd : Time) (f : Frame) (s : State),
    (let a := purgeStore (advance (sd + 136) s)
     let port := inputOf s
     (¬ OnPrimary s sd → exec (.primaryRepeat sd f) s = .next a.ignoredInput)
     ∧ (OnPrimary s sd → f.payload.isLink = true ∨ f.source = byte s.straps.address.val →
        exec (.primaryRepeat sd f) s = .next a)
     ∧ (OnPrimary s sd → f.payload.isLink = false → f.source ≠ byte s.straps.address.val →
        (64 ≤ f.hop.toNat ∨ 1024 < f.length.toNat → exec (.primaryRepeat sd f) s = .next
          { a with ri := { a.ri with hopRemovals := s.ri.hopRemovals + 1 } })
        ∧ (f.hop.toNat < 64 → f.length.toNat ≤ 1024 →
          ((∀ b, f.payload ≠ .beat b) → exec (.primaryRepeat sd f) s = .next { a with ri := { a.ri with
            delayed := s.ri.delayed ++
              [{ port := port, secondary := false, sd := sd.toNat, frame := { f with hop := f.hop + 1 } }] } })
          ∧ ∀ b, f.payload = .beat b →
            (let transit := match s.ri.mode with
               | .through | .wrapB => b.transit + BitVec.ofNat 32 (s.ri.ports[portA].delay.getD 0)
               | .wrapA => b.transit + BitVec.ofNat 32 (s.ri.ports[portB].delay.getD 0) + 320
               | .alone => b.transit + 640
             exec (.primaryRepeat sd f) s = .next { a with ri := { a.ri with
               delayed := s.ri.delayed ++ [{ port := port, secondary := false, sd := sd.toNat
                                             frame := { f with hop := f.hop + 1 }, transit := transit }]
               beatIn := some { sd := sd.toNat, transit := transit, duplicate := false
                                stamped := decide (b.slots[s.straps.address].mark = b.cycle.setWidth 8) } } })))
     ∧ (s.ri.mode ≠ .through → exec (.secondaryPass sd f) s = .next a)
     ∧ (s.ri.mode = .through → ¬ OnPort s portB sd → exec (.secondaryPass sd f) s = .next (a.ignored portB))
     ∧ (s.ri.mode = .through → OnPort s portB sd → f.payload.isLink = true → exec (.secondaryPass sd f) s = .next a)
     ∧ (s.ri.mode = .through → OnPort s portB sd → f.payload.isLink = false →
        (64 ≤ f.hop.toNat ∨ 1024 < f.length.toNat → exec (.secondaryPass sd f) s = .next
          { a with ri := { a.ri with hopRemovals := s.ri.hopRemovals + 1 } })
        ∧ (f.hop.toNat < 64 → f.length.toNat ≤ 1024 → ∃ (t : State) (c : Copy),
          exec (.secondaryPass sd f) s = .next t ∧ t.ri.delayed.getLast? = some c
          ∧ t = { a with ri := { a.ri with delayed := s.ri.delayed ++ [c] } }
          ∧ c.port = some portB ∧ c.secondary = true ∧ c.sd = sd.toNat ∧ c.frame = { f with hop := f.hop + 1 }
          ∧ c.damaged = none
          ∧ ∀ b, f.payload = .beat b →
              c.transit = b.transit + BitVec.ofNat 32 (s.ri.ports[portB].delay.getD 0))))

/-- R62, R66, R70, R71, R72, R78, R79, R84, R87, R93, R132, R141, R151, R153: the choice of the primary transmitter and the frame it
sends, with the slot still owed to a repeated BEAT. That a repeated frame counts when it goes out is the model's choice (log entry 50). -/
def Obligations.PrimaryTransmitterChooses : Prop :=
  ∀ (now : Time) (s : State),
    (let a := purgeStore (advance now s)
     let T := nowOf (advance now s)
     let p := fun c : Copy => !c.secondary || decide (s.ri.mode ≠ .through)
     ((∃ x, s.ri.primaryTx = some x ∧ T < x.endsAt + 64) → exec (.transmitterDecision now) s = .next a)
     ∧ ((∀ x, s.ri.primaryTx = some x → x.endsAt + 64 ≤ T) →
        (∀ b rest, s.tc.queue = b :: rest → ∃ t, exec (.transmitterDecision now) s = .next t
          ∧ (let old := (s.tc.heard[s.straps.address]).getD 0
             let seq := if b.refresh then old else old + 1
             t.tc = { s.tc with queue := rest, sent := s.tc.sent + 1, heard := s.tc.heard.set s.straps.address (some seq)
                                table := t.tc.table }
             ∧ ((∀ e ∈ s.tc.table, e.key = b.key → e.seq = some seq) → t.wc = s.wc)
             ∧ (TripTableKept s → (∀ e ∈ s.tc.table, e.key = b.key → e.seq ≠ some seq) → TableShown s t)
             ∧ t.ri = { a.ri with
                 primaryTx := some { frame := burstFrame s b seq, repeated := none, damaged := false, startsAt := T
                                     endsAt := T + 304 }
                 ownSent := { s.ri.ownSent with trip := s.ri.ownSent.trip + 1 } })
          ∧ t.tc.table = s.tc.table.map (fun e => if e.key = b.key then
              { e with age := 0, seq := some (if b.refresh then (s.tc.heard[s.straps.address]).getD 0
                                              else (s.tc.heard[s.straps.address]).getD 0 + 1) } else e)
          ∧ t = { a with ri := t.ri, tc := t.tc, wc := t.wc })
        ∧ (s.tc.queue = [] →
          (∀ c, waitingPlace p a = some c ∨ (waitingPlace p a = none ∧ readyCopy p a = some c) →
            ∃ t x, exec (.transmitterDecision now) s = .next t ∧ t.ri.primaryTx = some x
              ∧ x.frame.hop = c.frame.hop ∧ x.frame.source = c.frame.source ∧ x.frame.dest = c.frame.dest
              ∧ x.frame.length = c.frame.length ∧ x.frame.rest = c.frame.rest
              ∧ x.repeated = some (c.port, c.sd) ∧ x.damaged = c.damaged.isSome ∧ x.startsAt = T
              ∧ (x.slotOwed = true ↔ c.secondary = false ∧ ∃ b, c.frame.payload = .beat b
                  ∧ b.slots[s.straps.address].mark ≠ b.cycle.setWidth 8)
              ∧ x.endsAt = T + (match c.damaged with
                  | some k => (k + 2) * 8
                  | none => frameTime c.frame)
              ∧ t.ri.store = a.ri.store.map (fun p =>
                  if p.copy = c ∧ p.sentAt = none then { p with sentAt := some x.endsAt } else p)
              ∧ ((∀ b, c.frame.payload ≠ .beat b) → x.frame = c.frame)
              ∧ (∀ b, c.frame.payload = .beat b → x.frame.payload = .beat { b with
                  transit := c.transit
                    + BitVec.ofNat 32 (T - c.sd + if s.ri.mode = .wrapB then 320 else 0) })
              ∧ t.ri.repeated = s.ri.repeated + 1
              ∧ t = { a with ri := { a.ri with primaryTx := some x, repeated := s.ri.repeated + 1, store := t.ri.store
                                               delayed := s.ri.delayed.erase c } })
          ∧ (waitingPlace p a = none → readyCopy p a = none →
            (∀ q, s.ri.own.find? (ownPrimary s.ri.mode) = some (.beat q) → ∃ t x b,
                exec (.transmitterDecision now) s = .next t ∧ t.ri.primaryTx = some x ∧ OwnStarts s T x
                ∧ x.frame.payload = .beat b ∧ x.frame.dest = 63 ∧ x.frame.length = 280
                ∧ b.cycle = q.cycle ∧ b.theta = q.theta ∧ b.v = BitVec.ofInt 32 q.v ∧ b.lineState = q.lineState
                ∧ b.level = q.level ∧ b.period = q.period ∧ b.heal = q.heal ∧ b.flags = 0 ∧ b.transit = 0
                ∧ b.lateness = BitVec.ofInt 32 ((T : Int) - q.start)
                ∧ (∀ y : NodeAddr, b.slots[y] = if y = s.straps.address then
                      { mark := q.cycle.setWidth 8, nodeState := s.ct.nodeState, level := localLevel s
                        entries := byte (ownEntries s), mode := s.ri.mode }
                    else { mark := (q.cycle + 128).setWidth 8, nodeState := .config, level := .none, entries := 0
                           mode := .through })
                ∧ t = { a with ri := { a.ri with
                    primaryTx := some x, own := s.ri.own.erase (.beat q), healMark := s.ri.healMark || q.heal
                    ownSent := { s.ri.ownSent with beat := s.ri.ownSent.beat + 1 } } })
            ∧ (∀ r k, s.ri.own.find? (ownPrimary s.ri.mode) = some (.probe r k) → ∃ t x,
                exec (.transmitterDecision now) s = .next t ∧ t.ri.primaryTx = some x ∧ OwnStarts s T x
                ∧ x.frame.payload = .probe k ∧ x.frame.dest = 63 ∧ x.frame.length = 4
                ∧ t.ri.ports = s.ri.ports.set r { s.ri.ports[r] with outstanding := some (k, T) }
                ∧ t = { a with ri := { a.ri with
                    primaryTx := some x, own := s.ri.own.erase (.probe r k), ports := t.ri.ports
                    ownSent := { s.ri.ownSent with probe := s.ri.ownSent.probe + 1 } } })
            ∧ (∀ r d k at0, s.ri.own.find? (ownPrimary s.ri.mode) = some (.reply r d k at0) → ∃ t x,
                exec (.transmitterDecision now) s = .next t ∧ t.ri.primaryTx = some x ∧ OwnStarts s T x
                ∧ x.frame.payload = .probeReply k (BitVec.ofNat 32 (T - at0)) ∧ x.frame.dest = d ∧ x.frame.length = 8
                ∧ t = { a with ri := { a.ri with
                    primaryTx := some x, own := s.ri.own.erase (.reply r d k at0)
                    ownSent := { s.ri.ownSent with reply := s.ri.ownSent.reply + 1 } } })
            ∧ (s.ri.own.find? (ownPrimary s.ri.mode) = none → a.ri.store ≠ [] ∨ offeredView a = none →
                exec (.transmitterDecision now) s = .next a)
            ∧ ∀ v f bs, s.ri.own.find? (ownPrimary s.ri.mode) = none → a.ri.store = [] → offeredView a = some v →
                s.ve.views[v].current = some f → readySegment s.ve.views[v] = some bs → ∃ t x,
                exec (.transmitterDecision now) s = .next t ∧ t.ri.primaryTx = some x ∧ OwnStarts s T x
                ∧ x.frame = segmentFrame s v s.ve.views[v] f bs
                ∧ (let y := s.ve.views[v]
                   let pool := viewPool y.set
                   (f.next + 1 = f.count → t.ve.views[v] = { y with
                      sent := y.sent + 1, framesSent := y.framesSent + 1, last := some f.sequence, state := .waiting
                      current := none, prepared := none }
                    ∧ ReaderReleased pool f.buffer s t)
                   ∧ (f.next + 1 ≠ f.count → t.ve.views[v] = { y with
                      sent := y.sent + 1, current := some { f with next := f.next + 1 }
                      prepared := (s.pm.pools[pool].buffers[f.buffer]?).map fun z =>
                        { toRead := segmentReads y.set f z (f.next + 1), issued := [], ready := none, zeroed := [] } }
                    ∧ t.pm = s.pm ∧ t.wc = s.wc))
                ∧ (∀ w : Fin 4, w ≠ v → t.ve.views[w] = s.ve.views[w])
                ∧ t.ve.exhausted = (s.ve.exhausted || (firstReady t).any fun w =>
                    decide (t.ve.budget < ((readySegment t.ve.views[w]).getD []).length))
                ∧ t.ve = { s.ve with
                    views := t.ve.views, budget := s.ve.budget - bs.length, turn := v + 1, exhausted := t.ve.exhausted }
                ∧ t.pm = { s.pm with pools := t.pm.pools, work := t.pm.work } ∧ t.wc = { s.wc with queue := t.wc.queue }
                ∧ t = { a with ri := { a.ri with
                    primaryTx := some x, ownSent := { s.ri.ownSent with view := s.ri.ownSent.view + 1 } }
                               pm := t.pm, ve := t.ve, wc := t.wc }))))

/-- R67, R68, R72, R78, R79, R84: the secondary transmitter and the link-only fibres, and frames that must wait. That a running
delay does not hold an own link frame back (log entry 20), and that a repeated frame counts when it goes out (log entry 50), are
the model's choices. -/
def Obligations.OtherFibresAndWaiting : Prop :=
  ∀ (now : Time) (s : State),
    (let a := purgeStore (advance now s)
     let T := nowOf (advance now s)
     (∀ r : Port, (∃ x, s.ri.linkTx[r] = some x ∧ T < x.endsAt + 64) → exec (.secondaryTransmit r now) s = .next a)
     ∧ (∀ r : Port, (∀ x, s.ri.linkTx[r] = some x → x.endsAt + 64 ≤ T) →
        (∀ c, s.ri.mode = .through → r = portA →
          waitingPlace (fun c => c.secondary) a = some c
            ∨ (waitingPlace (fun c => c.secondary) a = none ∧ readyCopy (fun c => c.secondary) a = some c) →
          ∃ t x, exec (.secondaryTransmit r now) s = .next t ∧ t.ri.linkTx[r] = some x
            ∧ t.ri.linkTx = s.ri.linkTx.set r (some x)
            ∧ x.frame.hop = c.frame.hop ∧ x.frame.source = c.frame.source ∧ x.frame.dest = c.frame.dest
            ∧ x.frame.length = c.frame.length ∧ x.frame.rest = c.frame.rest
            ∧ ((∀ b, c.frame.payload ≠ .beat b) → x.frame = c.frame)
            ∧ (∀ b, c.frame.payload = .beat b → x.frame.payload =
                .beat { b with transit := c.transit + BitVec.ofNat 32 (T - c.sd) })
            ∧ x.damaged = c.damaged.isSome ∧ x.repeated = some (c.port, c.sd) ∧ x.startsAt = T ∧ x.slotOwed = false
            ∧ x.endsAt = T + (match c.damaged with
                | some k => (k + 2) * 8
                | none => frameTime c.frame)
            ∧ t.ri.store = a.ri.store.map (fun p =>
                if p.copy = c ∧ p.sentAt = none then { p with sentAt := some x.endsAt } else p)
            ∧ t = { a with ri := { a.ri with linkTx := t.ri.linkTx, repeated := s.ri.repeated + 1, store := t.ri.store
                                             delayed := s.ri.delayed.erase c } })
        ∧ (¬ (s.ri.mode = .through ∧ r = portA) ∨ (waitingPlace (fun c => c.secondary) a = none
              ∧ readyCopy (fun c => c.secondary) a = none) →
          (∀ f, s.ri.own.find? (ownOnFibre s.ri.mode r) = some f → ∃ t x, exec (.secondaryTransmit r now) s = .next t
            ∧ t.ri.linkTx[r] = some x ∧ t.ri.linkTx = s.ri.linkTx.set r (some x) ∧ OwnStarts s T x
            ∧ (∀ q k, f = .probe q k → x.frame.payload = .probe k ∧ x.frame.dest = 63 ∧ x.frame.length = 4
                ∧ t.ri.ports = s.ri.ports.set q { s.ri.ports[q] with outstanding := some (k, T) }
                ∧ t.ri.ownSent = { s.ri.ownSent with probe := s.ri.ownSent.probe + 1 })
            ∧ (∀ q d k at0, f = .reply q d k at0 →
                x.frame.payload = .probeReply k (BitVec.ofNat 32 (T - at0)) ∧ x.frame.dest = d ∧ x.frame.length = 8
                ∧ t.ri.ports = s.ri.ports ∧ t.ri.ownSent = { s.ri.ownSent with reply := s.ri.ownSent.reply + 1 })
            ∧ t = { a with ri := { a.ri with linkTx := t.ri.linkTx, own := s.ri.own.erase f, ports := t.ri.ports
                                             ownSent := t.ri.ownSent } })
          ∧ (s.ri.own.find? (ownOnFibre s.ri.mode r) = none → exec (.secondaryTransmit r now) s = .next a)))
     ∧ ∀ sec : Bool,
        (readyCopy (fun c => c.secondary == sec) a = none → exec (.repeatDelayExpiry sec now) s = .next a)
        ∧ ∀ c, readyCopy (fun c => c.secondary == sec) a = some c →
          (let room := 4 - a.ri.store.length
           let need := if isView c.frame then 2 else 1
           exec (.repeatDelayExpiry sec now) s = .next
            (if mustWait sec a = false then a
             else if need ≤ room then
              { a with ri := { a.ri with delayed := s.ri.delayed.erase c
                                         store := a.ri.store ++ [{ copy := c, sentAt := none }] } }
             else if isView c.frame then
              { a with ri := { a.ri with delayed := s.ri.delayed.erase c, viewDiscards := s.ri.viewDiscards + 1 } }
             else
              { a with ri := { a.ri with delayed := s.ri.delayed.erase c
                                         storeDiscards := s.ri.storeDiscards + 1 } })))

/-- R61, R62, R63, R64, R67, R73, R74, R81, R83: damaged frames, on a receive fibre and on the loop of ALONE, with the returning
beat among them, invalid symbols and misrouted frames. That a damaged returning beat is known by the header that came in and
enters the count of a heal (log entry 59), and that a frame which began before a change of the ring mode counts nothing (log
entry 12), are the model's choices. -/
def Obligations.LineErrorsCounted : Prop :=
  ∀ (p : Port) (s : State),
    (∀ f : FrameStart, ¬ OnPort s p f.sd → exec (.misroutedFrame p f) s = .next (s.ignored p))
    ∧ (∀ f : FrameStart, OnPort s p f.sd → exec (.misroutedFrame p f) s = .next
      (if (s.ri.mode = .alone ∨ (s.ri.mode = .wrapA ∧ p = portA) ∨ (s.ri.mode = .wrapB ∧ p = portB))
          ∧ f.kind ≠ 4 ∧ f.kind ≠ 5
       then { s with ri := { s.ri with misrouted := s.ri.misrouted + 1 } } else s))
    ∧ (s.ri.ports[p].state = .dark → exec (.invalidSymbol p) s = .next s)
    ∧ (s.ri.ports[p].state = .up → ∃ t, exec (.invalidSymbol p) s = .next t
        ∧ t.ri.ports = s.ri.ports.set p { s.ri.ports[p] with symbolErrors := s.ri.ports[p].symbolErrors + 1 }
        ∧ t = { s with ri := { s.ri with ports := t.ri.ports } })
    ∧ (s.ri.ports[p].state = .syncing → ∃ t, exec (.invalidSymbol p) s = .next t
        ∧ t.ri.ports = s.ri.ports.set p { s.ri.ports[p] with idleRun := 0 }
        ∧ t = { s with ri := { s.ri with ports := t.ri.ports } })
    ∧ ∀ (sd : Time) (rx : Reception),
        (let damaged := rx.ending ≠ .normal ∨ rx.invalidSymbol = true ∨ rx.bytes.length < 20
           ∨ rx.bytes.length ≠ 20 + beValue (field rx.bytes 4 2)
           ∨ rx.bytes.drop (rx.bytes.length - 4) ≠ le32 (crc32 (rx.bytes.take (rx.bytes.length - 4)))
         (¬ damaged → ∀ input : Option Port, exec (.damagedFrame input sd rx) s = .next s)
         ∧ (damaged → ¬ OnPort s p sd → exec (.damagedFrame (some p) sd rx) s = .next (s.ignored p))
         ∧ (damaged → OnPort s p sd → ∃ t, exec (.damagedFrame (some p) sd rx) s = .next t
            ∧ (rx.ending = .error → t.ri.ports = s.ri.ports)
            ∧ (rx.ending ≠ .error → t.ri.ports =
                s.ri.ports.set p { s.ri.ports[p] with crcErrors := s.ri.ports[p].crcErrors + 1 })
            ∧ FrameDamaged (some p) sd.toNat rx.bytes s t)
         ∧ (damaged → ¬ (s.ri.mode = .alone ∧ RoutedSince s sd) → exec (.damagedFrame none sd rx) s = .next s)
         ∧ (damaged → s.ri.mode = .alone → RoutedSince s sd → ∃ t, exec (.damagedFrame none sd rx) s = .next t
            ∧ t.ri.ports = s.ri.ports ∧ FrameDamaged none sd.toNat rx.bytes s t))

/-! ### Capture, pools and views -/

/-- R113, R114, R115, R116, R117, R118, R119, R124: the planning of a stream at a compute event, every row due being planned or
dropped; a planned trigger fires or is an overrun, its pulse ends, and an outstanding trigger times out. That the frame number
counts when row 0 is planned or dropped, and a row missing before its frame is begun is noted for it (log entry 24), and that a
stream whose rows due are all dropped keeps its state (log entry 63), are the model's choices. -/
def Obligations.TriggersFireAndTimeOut : Prop :=
  (∀ (u : Fin 2) (now lineFree : Time) (s : State), ComputeComes now s → ∃ t, exec (.compute now lineFree) s = .next t
    ∧ (let x := s.cu[u]
       let y := t.cu[u]
       let tIs : Int := s.ct.start + 1000 * (s.ct.pIs : Int)
       let P : Int := (Period.ns s.ct.period : Int)
       let theta := t.gu.thetaX
       let v := t.gu.lastV
       let behind := fun r : NextRow => t.gu.restarted = true ∨ 1048576 ≤ (theta - r.pos).toInt
       (x.state = .idle ∨ t.gu.formedNow = false → y = x)
       ∧ (x.state ≠ .idle → t.gu.formedNow = true →
          (v ≤ 0 → (∃ r, FirstRow theta behind x r ∧ y.nextRow = some r)
            ∧ (∀ r, x.nextRow = some r → behind r → y.state = .armed ∧ FramesMissing (lostRows x r) x y)
            ∧ ((∀ r, x.nextRow = some r → ¬ behind r) → y.state = x.state ∧ FramesMissing (fun _ => 0) x y)
            ∧ y = { x with nextRow := y.nextRow, state := y.state, frames := y.frames, ahead := y.ahead
                           counts := { x.counts with resyncs := y.counts.resyncs, completed := y.counts.completed } })
          ∧ (∀ r, x.nextRow = some r → behind r → y.counts.resyncs = x.counts.resyncs + 1)
          ∧ ((∀ r, x.nextRow = some r → ¬ behind r) → y.counts.resyncs = x.counts.resyncs)
          ∧ (0 < v → v < 1073741824 → 16 ≤ x.set.pitch → x.set.pitch ≤ 65535 →
              (∀ r, x.nextRow = some r → r.j * x.set.pitch < 1048576) → TriggersPlanned tIs P theta v behind x y)
          ∧ ∀ r, x.nextRow = some r → ¬ behind r → 0 < v → (r.pos - (theta + BitVec.ofInt 32 v)).toInt ≤ 0 →
              0 < ((nextRowOf x.set.pitch r).pos - (theta + BitVec.ofInt 32 v)).toInt →
              RowPlanned tIs P theta v r (nextRowOf x.set.pitch r) x y)))
  ∧ ∀ (u : Fin 2) (now : Time) (s : State),
    (let a := advance now s
     let T : Int := (nowOf a : Int)
     let x := s.cu[u]
     (s.cu[u].plan = [] ∨ (∀ p ∈ s.cu[u].plan.head?, T < p.time) → exec (.triggerFire u now) s = .next a)
     ∧ (∀ p rest, x.plan = p :: rest → p.time ≤ T →
        (x.outstanding.length < 4 → exec (.triggerFire u now) s = .next { a with
            cu := s.cu.set u
              { x with plan := rest, outstanding := x.outstanding ++ [{ p with time := T }], trigHigh := true
                       trigFall := T + min (4 * (x.set.minPeriod : Int)) 1000
                       counts := { x.counts with fired := x.counts.fired + 1 } } })
        ∧ (4 ≤ x.outstanding.length → ∃ t, exec (.triggerFire u now) s = .next t
            ∧ t.cu[u] = { x with
                plan := rest, frames := t.cu[u].frames, ahead := t.cu[u].ahead
                counts := { x.counts with
                  overruns := x.counts.overruns + 1, completed := t.cu[u].counts.completed } }
            ∧ RowMissing p.frame x t.cu[u] ∧ t = { a with cu := s.cu.set u t.cu[u] }))
     ∧ exec (.triggerPulseEnd u now) s = .next { a with
          cu := s.cu.set u
            { x with trigHigh := if x.trigFall ≤ T then false else x.trigHigh } }
     ∧ (x.outstanding = [] ∨ (∀ p ∈ x.outstanding.head?, T < p.time + 1000 * (x.set.rowTimeout : Int)) →
        exec (.rowTimeout u now) s = .next a)
     ∧ ∀ p rest, x.outstanding = p :: rest → p.time + 1000 * (x.set.rowTimeout : Int) ≤ T →
        ∃ t, exec (.rowTimeout u now) s = .next t
          ∧ t.cu[u] = { x with
              outstanding := rest, frames := t.cu[u].frames, ahead := t.cu[u].ahead
              counts := { x.counts with timeouts := x.counts.timeouts + 1, completed := t.cu[u].counts.completed } }
          ∧ RowMissing p.frame x t.cu[u]
          ∧ t = { a with cu := s.cu.set u t.cu[u] })

/-- R114, R120, R121, R122, R123, R124, R125, R132, R135, R137, R143: a row begins, with its frame where it is new and the
target asked for; its pixels arrive; it ends and is resolved; the web state changes. That a padding byte that finds no room
overruns the row (log entry 13), which flag a pixel gets that two causes discard (log entry 74), that rows missing before their
frame is begun are noted for it (log entry 24), that a closed window answers a request by the hold values last read (log entry
38), and what WEB_STATE_CHANGE does apart from the row's end (log entry 16), are the model's choices. -/
def Obligations.RowsReceived : Prop :=
  ∀ (u : Fin 2) (s : State),
    (let x := s.cu[u]
     (x.state = .idle ∨ x.row.isSome → exec (.rowBegin u) s = .next s)
     ∧ (x.state ≠ .idle → x.row = none → x.outstanding = [] → exec (.rowBegin u) s = .next { s with
          cu := s.cu.set u
            { x with counts := { x.counts with spurious := x.counts.spurious + 1 } } })
     ∧ (∀ p rest l f, x.state ≠ .idle → x.row = none → x.outstanding = p :: rest → x.frames.getLast? = some l →
        l.number = p.frame → x.frames.find? (fun g => decide (g.number = p.frame)) = some f →
        exec (.rowBegin u) s = .next { s with
          cu := s.cu.set u
            { x with outstanding := rest, row := some { frame := f.id, j := p.j } } })
     ∧ (∀ p rest, x.state ≠ .idle → x.row = none → x.outstanding = p :: rest →
        (∀ f ∈ x.frames.getLast?, f.number ≠ p.frame) → ∃ t, exec (.rowBegin u) s = .next t
          ∧ t.cu[u].outstanding = rest ∧ t.cu[u].nextId = x.nextId + 1 ∧ t.cu[u].plan = x.plan
          ∧ (∀ g ∈ t.cu[u].frames, (g.id = x.nextId ∧ g.number = p.frame ∧ g.rows = rowsPerFrame x.set.pitch
                ∧ g.boundary = p.pos - BitVec.ofNat 32 (p.j * x.set.pitch))
              ∨ (g.rows ≤ g.resolved ∧ ∃ f ∈ x.frames, f.id = g.id ∧ f.rows = g.rows))
          ∧ ((∀ g ∈ x.frames, g.number ≠ p.frame ∧ g.id ≠ x.nextId) → (∀ y ∈ x.fifo, y.frame ≠ x.nextId) →
              (begunFrame x p).resolved < (begunFrame x p).rows →
              (let pool := s.pm.pools[capturePool u]
               (pool.configured = false ∨ pool.pendingTarget.isSome ∨ pool.request.isSome →
                  FrameBegun p rest .skip x t.cu[u] ∧ TargetSkipped (capturePool u) s t)
               ∧ (pool.configured = true → pool.pendingTarget = none → pool.request = none →
                  (windowOn s = true → FrameBegun p rest .waiting x t.cu[u]
                    ∧ TargetAwaited (capturePool u) (frameRequest x p) s t)
                  ∧ (windowOn s = false →
                    (∀ b, ChosenTarget pool (holdsLastRead pool) b → FrameBegun p rest (.buffer b) x t.cu[u]
                      ∧ TargetTaken (capturePool u) (frameRequest x p) b s t ∧ t.wc = s.wc)
                    ∧ ((∀ b, ¬ ChosenTarget pool (holdsLastRead pool) b) → FrameBegun p rest .skip x t.cu[u]
                      ∧ TargetSkipped (capturePool u) s t ∧ t.wc = s.wc)))))
          ∧ t = { s with cu := s.cu.set u t.cu[u], pm := t.pm, wc := t.wc })
     ∧ (∀ px : Byte, x.row = none → exec (.cameraPixel u px) s = .next s)
     ∧ (∀ (px : Byte) r, x.row = some r → x.set.rowPixels ≤ r.received → exec (.cameraPixel u px) s = .next
          (if r.long then s else { s with
            cu := s.cu.set u
              { x with row := some { r with long := true }
                       counts := { x.counts with longRows := x.counts.longRows + 1 } } }))
     ∧ (∀ (px : Byte) r, x.row = some r → r.received < x.set.rowPixels → ∃ t r', exec (.cameraPixel u px) s = .next t
          ∧ t.cu[u].row = some r' ∧ r'.received = r.received + 1 ∧ r'.sum = r.sum + px.toNat ∧ r'.j = r.j
          ∧ r'.frame = r.frame ∧ t = { s with cu := s.cu.set u t.cu[u] }
          ∧ (x.set.decimation ≠ 1 → r.received % 2 = 1 → t.cu[u].fifo = x.fifo)
          ∧ (r.overrun = true → t.cu[u].fifo = x.fifo ∧ r'.overrun = true)
          ∧ (r.overrun = true ∨ (x.set.decimation ≠ 1 ∧ r.received % 2 = 1) → t.cu[u] = { x with
              row := some { r with received := r.received + 1, sum := r.sum + px.toNat } })
          ∧ (x.set.decimation = 1 ∨ r.received % 2 = 0 → r.overrun = false →
              (frameTarget x r.frame = .waiting → t.cu[u] = pixelStored u px r .waiting none x)
              ∧ (frameTarget x r.frame = .skip → t.cu[u] = pixelStored u px r .skip none x)
              ∧ ∀ b, frameTarget x r.frame = .buffer b →
                t.cu[u] = pixelStored u px r (.buffer b) (bufferAt s (capturePool u) b) x))
     ∧ (x.row = none → exec (.rowEnd u) s = .next s)
     ∧ (∀ r, x.row = some r → ∃ t, exec (.rowEnd u) s = .next t ∧ t.cu[u].row = none
          ∧ t.cu[u].outstanding = x.outstanding ∧ t.cu[u].plan = x.plan
          ∧ t.cu[u].counts.shortRows = x.counts.shortRows + (if r.received < x.set.rowPixels then 1 else 0)
          ∧ (r.received = 0 → t.cu[u].dark = x.dark ∧ t.cu[u].bright = x.bright ∧ t.cu[u].broken = x.broken)
          ∧ (0 < r.received → t.cu[u].lastMean = r.sum / r.received
              ∧ (r.sum / r.received < x.set.threshold → t.cu[u].bright = 0
                  ∧ t.cu[u].dark = (if x.dark < x.set.webRows then x.dark + 1 else x.dark))
              ∧ (x.set.threshold ≤ r.sum / r.received → t.cu[u].dark = 0
                  ∧ t.cu[u].bright = (if x.bright < x.set.webRows then x.bright + 1 else x.bright)))
          ∧ (frameTarget x r.frame = .waiting → RowResolved u r .waiting none x t.cu[u])
          ∧ (frameTarget x r.frame = .skip → RowResolved u r .skip none x t.cu[u])
          ∧ (∀ b, frameTarget x r.frame = .buffer b →
              RowResolved u r (.buffer b) (bufferAt s (capturePool u) b) x t.cu[u])
          ∧ (0 < r.received → t.cu[u].broken = (if x.broken then decide (t.cu[u].bright < x.set.webRows)
              else decide (x.set.webRows ≤ t.cu[u].dark)))
          ∧ (t.cu[u].broken = x.broken → t = { s with cu := s.cu.set u t.cu[u] })
          ∧ (x.broken = false → t.cu[u].broken = true → ∀ cls, x.set.webClass = some cls →
              findCond t .web u.val = some ⟨.web, u.val, cls⟩
              ∧ (findCond s .web u.val = none → ConditionMet s t ⟨.web, u.val, cls⟩))
          ∧ (x.broken = true → t.cu[u].broken = false → findCond t .web u.val = none
              ∧ (findCond s .web u.val ≠ none → ConditionGone s t .web u.val))
          ∧ LevelRises none s t ∧ TelegramSpoiled s t
          ∧ t = { s with cu := s.cu.set u t.cu[u], gu := t.gu, dlc := t.dlc, tc := t.tc, wc := t.wc })
     ∧ ((x.broken = false → x.dark < x.set.webRows) → (x.broken = true → x.bright < x.set.webRows) →
        exec (.webStateChange u) s = .next s)
     ∧ (x.broken = false → x.set.webRows ≤ x.dark → ∃ t, exec (.webStateChange u) s = .next t
          ∧ t.cu = s.cu.set u { x with broken := true }
          ∧ (x.set.webClass = none → t = { s with cu := t.cu })
          ∧ (∀ cls, x.set.webClass = some cls → findCond t .web u.val = some ⟨.web, u.val, cls⟩
              ∧ (findCond s .web u.val = none → ConditionMet s t ⟨.web, u.val, cls⟩))
          ∧ LevelRises none s t ∧ TelegramSpoiled s t
          ∧ t = { s with cu := t.cu, gu := t.gu, dlc := t.dlc, tc := t.tc, wc := t.wc })
     ∧ (x.broken = true → x.set.webRows ≤ x.bright → ∃ t, exec (.webStateChange u) s = .next t
          ∧ t.cu = s.cu.set u { x with broken := false } ∧ findCond t .web u.val = none
          ∧ (findCond s .web u.val ≠ none → ConditionGone s t .web u.val)
          ∧ (findCond s .web u.val = none → t = { s with cu := t.cu })
          ∧ t = { s with cu := t.cu, tc := t.tc, wc := t.wc }))

/-- R121, R132, R134, R135, R136, R137, R138, R139, R143, R157: the choice of a fill target, with what it makes of the bytes
that waited for it, the completion of a frame while other frames and writes of the unit go on, and with it that of a pending
target's frame with nothing left to write, and the state byte behind it. That the completion stands for the return of the read
that reports the frame's writes, and that their bytes enter memory with it (log entries 32 and 41), are the model's choices.
That equal or opposite sequences are compared in index order (log entry 56), and that the writes of all pools keep one order
(log entry 25), are the model's choices. -/
def Obligations.PoolEvents : Prop :=
  ∀ (p : Fin 6) (s : State),
    (∀ holds, s.pm.pools[p].request = none → exec (.fillTargetChoice p holds) s = .next s)
    ∧ (∀ holds, landed s (.hold p) = false ∨ (∃ w ∈ s.pm.work, w.rewrite = true) →
        exec (.fillTargetChoice p holds) s = .next s)
    ∧ (∀ holds r, s.pm.pools[p].request = some r → landed s (.hold p) = true → (∀ w ∈ s.pm.work, w.rewrite = false) → ∃ t,
        exec (.fillTargetChoice p holds) s = .next t ∧ t.pm.pools[p].request = none
        ∧ (let chosen := ChosenTarget s.pm.pools[p] holds
           let put := fun (unit id : Nat) (y : Buffer) (q : List FifoByte) => q.filterMap fun e : FifoByte =>
             if e.unit = unit ∧ e.frame = id then
               if y.capacity ≤ e.row ∨ y.stride ≤ e.col then none
               else some { e with addr := some (y.address + BitVec.ofNat 64 (e.row * y.stride + e.col)) }
             else some e
           let clips := fun (unit id : Nat) (y : Buffer) (q : List FifoByte) =>
             q.any fun e => decide (e.unit = unit ∧ e.frame = id ∧ (y.capacity ≤ e.row ∨ y.stride ≤ e.col))
           (∀ b, chosen b → TargetTaken p r b s t)
           ∧ ((∀ b, ¬ chosen b) → s.pm.pools[p].configured = true → TargetSkipped p s t)
           ∧ (∀ (u : Fin 2) f, p.val = u.val → s.cu[u].frames.find? (fun g => decide (g.target = .waiting)) = some f →
              (∀ b y, chosen b → s.pm.pools[p].buffers[b]? = some y → t.cu[u].fifo = put u.val f.id y s.cu[u].fifo
                ∧ (let beyond := (f.waitingRows.filter fun j => decide (y.capacity ≤ j)).length
                   (s.cu[u].frames.map (·.id)).Nodup →
                   (∀ g ∈ s.cu[u].frames, g.target = .skip → g.resolved < g.rows) →
                   t.cu[u] = { s.cu[u] with
                     fifo := t.cu[u].fifo
                     frames := s.cu[u].frames.map fun g => if g.id = f.id then { g with
                       target := .buffer b, waitingRows := [], stored := f.stored + (f.waitingRows.length - beyond)
                       flags := { g.flags with clipped :=
                         g.flags.clipped || clips u.val f.id y s.cu[u].fifo || decide (0 < beyond) } } else g
                     counts := { s.cu[u].counts with
                       clippedRows := s.cu[u].counts.clippedRows + BitVec.ofNat 32 beyond } }))
              ∧ ((∀ b, ¬ chosen b) →
                  t.cu[u].fifo = (s.cu[u].fifo.filter fun e => decide (¬ (e.unit = u.val ∧ e.frame = f.id)))
                  ∧ (let all := s.cu[u].frames.map fun g =>
                       if g.id = f.id then { g with target := .skip, waitingRows := [] } else g
                     t.cu[u] = { s.cu[u] with
                       fifo := t.cu[u].fifo, frames := unsettled all
                       counts := { s.cu[u].counts with
                         discarded := s.cu[u].counts.discarded + BitVec.ofNat 32 f.waitingRows.length
                         completed := s.cu[u].counts.completed + BitVec.ofNat 32 (all.length - (unsettled all).length) } })))
           ∧ ∀ (k : Fin 4) f, p.val = k.val + 2 →
              s.ve.bindings[k].frames.find? (fun g => decide (g.target = .waiting)) = some f →
              (∀ b y, chosen b → s.pm.pools[p].buffers[b]? = some y → t.ve.ringIn = put k.val f.id y s.ve.ringIn
                ∧ t.ve.bindings[k] = { s.ve.bindings[k] with
                    frames := s.ve.bindings[k].frames.map fun g => if g.id = f.id then { g with
                      target := .buffer b
                      flags := { g.flags with clipped := g.flags.clipped || clips k.val f.id y s.ve.ringIn } } else g })
              ∧ ((∀ b, ¬ chosen b) →
                  t.ve.ringIn = (s.ve.ringIn.filter fun e => decide (¬ (e.unit = k.val ∧ e.frame = f.id)))
                  ∧ t.ve.bindings[k] = { s.ve.bindings[k] with
                      asm := if f.closed then s.ve.bindings[k].asm else .skipping
                      frames := s.ve.bindings[k].frames.filter fun g => decide (g.id ≠ f.id) })
              ∧ t.ve = { s.ve with ringIn := t.ve.ringIn, bindings := s.ve.bindings.set k t.ve.bindings[k] })
        ∧ (∀ u : Fin 2, p.val ≠ u.val → t.cu[u] = s.cu[u]) ∧ (p.val < 2 → t.ve = s.ve)
        ∧ t.wc = { s.wc with queue := t.wc.queue }
        ∧ t = { s with cu := t.cu, pm := t.pm, ve := t.ve, wc := t.wc })
    ∧ (s.pm.pools[p].filling = none → exec (.frameCompletion p) s = .next s)
    ∧ (∀ (u : Fin 2) b, p.val = u.val → s.pm.pools[p].filling = some b →
        (∀ f, s.cu[u].frames.find? (fun g => decide (g.target = .buffer b)) = some f → CaptureWaits s u f) →
        exec (.frameCompletion p) s = .next s)
    ∧ (∀ (k : Fin 4) b, p.val = k.val + 2 → s.pm.pools[p].filling = some b →
        (∀ f, s.ve.bindings[k].frames.find? (fun g => decide (g.target = .buffer b)) = some f → RecvWaits s k f) →
        exec (.frameCompletion p) s = .next s)
    ∧ (∀ (u : Fin 2) f b, p.val = u.val → s.pm.pools[p].filling = some b →
        s.cu[u].frames.find? (fun g => decide (g.target = .buffer b)) = some f →
        b < s.pm.pools[p].buffers.length → ¬ CaptureWaits s u f →
        (∀ w, s.pm.pools[p].pendingTarget = some w → w.buffer < s.pm.pools[p].buffers.length ∧ w.buffer ≠ b) →
        ((∀ w, s.pm.pools[p].pendingTarget = some w → ∀ g ∈ s.cu[u].frames, g.target = .buffer w.buffer → CaptureWaits s u g) →
          ∃ t, exec (.frameCompletion p) s = .next t
          ∧ BufferCompleted p b f.stored f.flags f.boundary (f.boundary.toNat / 1048576) s t
          ∧ WritesReported u.val f.id s.cu[u].flight t.cu[u].flight s.mem t.mem
          ∧ t.cu = s.cu.set u { s.cu[u] with
              flight := t.cu[u].flight, frames := s.cu[u].frames.filter (fun g => decide (g.id ≠ f.id))
              counts := { s.cu[u].counts with completed := s.cu[u].counts.completed + 1 } }
          ∧ t = { s with cu := t.cu, pm := t.pm, wc := t.wc, mem := t.mem })
        ∧ ∀ w g, s.pm.pools[p].pendingTarget = some w →
          s.cu[u].frames.find? (fun g => decide (g.target = .buffer w.buffer)) = some g → g.id ≠ f.id →
          ¬ CaptureWaits s u g → ∃ (m t : State) (ws : List DataWrite) (mem : List Host.Cell),
            exec (.frameCompletion p) s = .next t
            ∧ BufferCompleted p b f.stored f.flags f.boundary (f.boundary.toNat / 1048576) s m
            ∧ m.pm.pools[p].filling = some w.buffer ∧ m = { s with pm := m.pm, wc := m.wc }
            ∧ BufferCompleted p w.buffer g.stored g.flags g.boundary (g.boundary.toNat / 1048576) m t
            ∧ WritesReported u.val f.id s.cu[u].flight ws s.mem mem
            ∧ WritesReported u.val g.id ws t.cu[u].flight mem t.mem
            ∧ t.cu = s.cu.set u { s.cu[u] with
                flight := t.cu[u].flight
                frames := s.cu[u].frames.filter fun x => decide (x.id ≠ f.id ∧ x.id ≠ g.id)
                counts := { s.cu[u].counts with completed := s.cu[u].counts.completed + 2 } }
            ∧ t = { s with cu := t.cu, pm := t.pm, wc := t.wc, mem := t.mem })
    ∧ (∀ (k : Fin 4) f b x, p.val = k.val + 2 → s.pm.pools[p].filling = some b →
        s.ve.bindings[k].frames.find? (fun g => decide (g.target = .buffer b)) = some f →
        s.pm.pools[p].buffers[b]? = some x → ¬ RecvWaits s k f →
        (∀ w, s.pm.pools[p].pendingTarget = some w → w.buffer < s.pm.pools[p].buffers.length ∧ w.buffer ≠ b) →
        ((∀ w, s.pm.pools[p].pendingTarget = some w →
            ∀ g ∈ s.ve.bindings[k].frames, g.target = .buffer w.buffer → RecvWaits s k g) →
          ∃ t, exec (.frameCompletion p) s = .next t
          ∧ BufferCompleted p b (min (ceilDiv f.extent f.w) x.capacity) f.flags 0 f.repeatNo s t
          ∧ WritesReported k.val f.id s.ve.flight t.ve.flight s.mem t.mem
          ∧ t.ve = { s.ve with flight := t.ve.flight, bindings := s.ve.bindings.set k { s.ve.bindings[k] with
              frames := s.ve.bindings[k].frames.filter fun g => decide (g.id ≠ f.id) } }
          ∧ t = { s with ve := t.ve, pm := t.pm, wc := t.wc, mem := t.mem })
        ∧ ∀ w g y, s.pm.pools[p].pendingTarget = some w → s.pm.pools[p].buffers[w.buffer]? = some y →
          s.ve.bindings[k].frames.find? (fun g => decide (g.target = .buffer w.buffer)) = some g → g.id ≠ f.id →
          ¬ RecvWaits s k g → ∃ (m t : State) (ws : List DataWrite) (mem : List Host.Cell),
            exec (.frameCompletion p) s = .next t
            ∧ BufferCompleted p b (min (ceilDiv f.extent f.w) x.capacity) f.flags 0 f.repeatNo s m
            ∧ m.pm.pools[p].filling = some w.buffer ∧ m = { s with pm := m.pm, wc := m.wc }
            ∧ BufferCompleted p w.buffer (min (ceilDiv g.extent g.w) y.capacity) g.flags 0 g.repeatNo m t
            ∧ WritesReported k.val f.id s.ve.flight ws s.mem mem ∧ WritesReported k.val g.id ws t.ve.flight mem t.mem
            ∧ t.ve = { s.ve with flight := t.ve.flight, bindings := s.ve.bindings.set k { s.ve.bindings[k] with
                frames := s.ve.bindings[k].frames.filter fun z => decide (z.id ≠ f.id ∧ z.id ≠ g.id) } }
            ∧ t = { s with ve := t.ve, pm := t.pm, wc := t.wc, mem := t.mem })
    ∧ ∀ b : Fin 8,
        ((∀ w ∈ s.pm.work.head?, PoolWrite.isChangeOf p b.val w = none) ∨ windowOn s = false
            ∨ landed s (.desc p b.val) = false → exec (.descriptorStateWrite p b) s = .next s)
        ∧ ∀ bytes st r ws, s.pm.work = ⟨p, .change b.val bytes st, r⟩ :: ws → windowOn s = true →
            landed s (.desc p b.val) = true → ∃ t items, exec (.descriptorStateWrite p b) s = .next t
              ∧ PoolWritesIssued s t ws items
              ∧ t.wc.queue = s.wc.queue
                  ++ writeItem s .plain false (0x1400 + (8 * p.val + b.val) * 32 + 13) [byte st.code] :: items
              ∧ t.wc = { s.wc with queue := t.wc.queue }
              ∧ t = { s with pm := t.pm, wc := t.wc }

/-- R61, R69, R140, R149, R150, R151, R156, R157, R158, R159: a view frame starts and an idle count grows at a compute event; a
segment to send becomes ready; a segment received finds its binding, with the bytes it puts in the ring-in buffer; an idle
assembly times out. What a node reset makes of a segment (log entry 9), and what the row of the timeout does out of its order
(log entry 16), that a closed window answers a request by the hold values last read (log entry 38), and the pixels of a segment
whose payload is shorter or longer than its pixel-bytes field says (log entry 65), which flag a byte gets that two causes
discard (log entry 74), and that a frame which began before a change of the ring mode is lost (log entry 12), are the model's
choices. -/
def Obligations.SegmentsFormedAndTaken : Prop :=
  (∀ (now lineFree : Time) (s : State), ComputeComes now s → ∃ t, exec (.compute now lineFree) s = .next t
    ∧ (∀ v : Fin 4,
      (let x := s.ve.views[v]
       let runs := t.ct.nodeState ≠ .config ∧ t.ct.nodeState ≠ .passive
       (¬ runs ∨ x.state ≠ .waiting → t.ve.views[v] = x)
       ∧ (runs → x.state = .waiting → ∀ p : Fin 6, p.val = x.set.pool.val →
          (NoneEligible s p false x.last → t.ve.views[v] = x)
          ∧ ∀ b y, NewestEligible s p false x.last b y → ViewStarts b y x t.ve.views[v])))
    ∧ (∀ (p : Fin 6) (b : Nat) (y : Buffer), s.pm.pools[p].buffers[b]? = some y →
        t.pm.pools[p].buffers[b]? = some { y with
          readers := y.readers + ((List.finRange 4).filter fun v : Fin 4 =>
            decide (s.ve.views[v].state = .waiting ∧ t.ve.views[v].state = .sending ∧ p.val = s.ve.views[v].set.pool.val
              ∧ t.ve.views[v].current.map (·.buffer) = some b)).length })
    ∧ ∀ b : Fin 4,
      (let x := s.ve.bindings[b]
       let y := t.ve.bindings[b]
       (x.asm ≠ .openA → y = x)
       ∧ (x.asm = .openA → x.idle + 1 < x.timeout → y = { x with idle := x.idle + 1 })
       ∧ (x.asm = .openA → x.timeout ≤ x.idle + 1 → y.asm = .closed ∧ y.timeouts = x.timeouts + 1
          ∧ y.frames.length = x.frames.length
          ∧ ∀ f ∈ y.frames.getLast?, f.closed = true ∧ f.flags.incomplete = true)))
  ∧ (∀ (v : Fin 4) (cells : List (List Byte)) (s : State),
    (s.ve.views[v].current = none ∨ s.ve.views[v].prepared = none → exec (.segmentReady v cells) s = .next s)
    ∧ ∀ f p, s.ve.views[v].current = some f → s.ve.views[v].prepared = some p →
      (p.toRead ≠ [] ∨ p.ready ≠ none → exec (.segmentReady v cells) s = .next s)
      ∧ (p.toRead = [] → p.ready = none → ∃ t q bs, exec (.segmentReady v cells) s = .next t
        ∧ t.ve.views[v].prepared = some q ∧ q.ready = some bs
        ∧ t.ve.views = s.ve.views.set v { s.ve.views[v] with prepared := some { p with ready := some bs } }
        ∧ bs.length = min s.ve.views[v].set.segSize (f.w * f.h - f.next * s.ve.views[v].set.segSize)
        ∧ (∀ k, k < bs.length → k ∉ p.zeroed → bs[k]? = some
            (if s.ve.views[v].set.mean then
              byte ((((cells.getD k []).map (·.toNat)).sum + s.ve.views[v].set.dx * s.ve.views[v].set.dy / 2)
                / (s.ve.views[v].set.dx * s.ve.views[v].set.dy))
             else (cells.getD k []).getD 0 0))
        ∧ (∀ k, k < bs.length → k ∈ p.zeroed → bs[k]? = some 0)
        ∧ t = { s with ve := { s.ve with views := t.ve.views, exhausted := t.ve.exhausted } }))
  ∧ (∀ (d : Delivered Segment) (g : Segment) (s : State), d.body = g →
    (¬ OnPrimary s d.sd → exec (.segmentDelivery d) s = .next s.ignoredInput)
    ∧ (OnPrimary s d.sd →
      ¬ (Passes s d.sd d.toFrameHead ∧ (d.dest = byte s.straps.address.val ∨ d.dest = 63)) ∨ s.wc.resetting = true →
      exec (.segmentDelivery d) s = .next s)
    ∧ (Passes s d.sd d.toFrameHead → d.dest = byte s.straps.address.val ∨ d.dest = 63 → s.wc.resetting = false →
      ((∀ (b : Fin 4) (n : NodeAddr) (v : Nat), s.ve.bindings[b].source = some (n, v) →
          n.val ≠ g.source.toNat ∨ v ≠ g.view.toNat) →
        exec (.segmentDelivery d) s = .next { s with ve := { s.ve with unbound := s.ve.unbound + 1 } })
      ∧ ∀ b, bindingFor s g = some b →
        (let x := s.ve.bindings[b]
         let i := g.index.toNat
         let px := g.pixelBytes.toNat
         let off := if i + 1 < g.count.toNat then i * px else g.w.toNat * g.h.toNat - px
         let bytes := fun (id w : Nat) => (List.range px).map fun k : Nat =>
           ({ unit := b.val, frame := id, row := (off + k) / w, col := (off + k) % w, addr := none
              byte := g.pixels.getD k 0 } : FifoByte)
         let room := 2048 - s.ve.ringIn.length
         let placed := fun (y : Buffer) (e : FifoByte) =>
           if e.row < y.capacity ∧ e.col < y.stride then
             some { e with addr := some (y.address + BitVec.ofNat 64 (e.row * y.stride + e.col)) } else none
         (invalidHeader x g = true → exec (.segmentDelivery d) s = .next { s with ve := { s.ve with
            bindings := s.ve.bindings.set b { x with invalid := x.invalid + 1 } } })
         ∧ (invalidHeader x g = false →
          (x.last = some g.sequence → x.asm = .skipping → exec (.segmentDelivery d) s = .next { s with ve := { s.ve with
            bindings := s.ve.bindings.set b { x with skipped := x.skipped + 1 } } })
          ∧ (x.last = some g.sequence → x.asm = .closed ∨ (x.asm = .openA ∧ i < x.next) →
            exec (.segmentDelivery d) s = .next { s with ve := { s.ve with
              bindings := s.ve.bindings.set b { x with duplicates := x.duplicates + 1 } } })
          ∧ (∀ f0, x.last = some g.sequence → x.asm = .openA → x.next ≤ i → x.frames.getLast? = some f0 → ∃ t f,
            exec (.segmentDelivery d) s = .next t ∧ t.ve.bindings[b].accepted = x.accepted + 1
            ∧ t.ve.bindings[b].next = i + 1 ∧ t.ve.bindings[b].idle = 0
            ∧ t.ve.bindings[b].gaps = x.gaps + BitVec.ofNat 32 (i - x.next)
            ∧ t.ve.bindings[b].asm = (if i + 1 = g.count.toNat then .closed else .openA)
            ∧ t.ve.bindings[b].frames = x.frames.dropLast ++ [f]
            ∧ f = { f0 with extent := off + px, flags := f.flags, closed := f0.closed || decide (i + 1 = g.count.toNat) }
            ∧ f.flags.gapped = (f0.flags.gapped || decide (x.next < i))
            ∧ f.flags.incomplete = (f0.flags.incomplete || decide (x.next < i))
            ∧ (f0.target = .waiting → t.ve.ringIn = s.ve.ringIn ++ (bytes f0.id f0.w).take room
                ∧ f.flags.clipped = f0.flags.clipped ∧ f.flags.overrun = (f0.flags.overrun || decide (room < px)))
            ∧ (∀ k y, f0.target = .buffer k → s.pm.pools[recvPool b].buffers[k]? = some y →
                (let inside := (bytes f0.id f0.w).filterMap (placed y)
                 t.ve.ringIn = s.ve.ringIn ++ inside.take room
                 ∧ f.flags.overrun = (f0.flags.overrun || decide (room < inside.length))
                 ∧ f.flags.clipped = (f0.flags.clipped || decide (inside.length < px))))
            ∧ t = { s with ve := { s.ve with ringIn := t.ve.ringIn, bindings := s.ve.bindings.set b t.ve.bindings[b] } })
          ∧ (x.last ≠ some g.sequence → ∃ t, exec (.segmentDelivery d) s = .next t
            ∧ t.ve.bindings[b].last = some g.sequence ∧ t.ve.bindings[b].accepted = x.accepted + 1
            ∧ t.ve.bindings[b].gaps = x.gaps + BitVec.ofNat 32 i
            ∧ t.ve.bindings[b].supersessions = x.supersessions + (if x.asm = .openA then 1 else 0)
            ∧ (∀ f0 ∈ x.frames.getLast?, x.asm = .openA → f0.id ≠ x.nextId →
                { f0 with closed := true, flags := { f0.flags with incomplete := true } } ∈ t.ve.bindings[b].frames)
            ∧ (let p := s.pm.pools[recvPool b]
               (p.configured = false ∨ p.pendingTarget.isSome ∨ p.request.isSome →
                  t.ve.bindings[b].asm = (if i + 1 = g.count.toNat then .closed else .skipping)
                  ∧ (∀ f ∈ t.ve.bindings[b].frames, f.id ≠ x.nextId)
                  ∧ TargetSkipped (recvPool b) s t)
               ∧ (p.configured = true → p.pendingTarget = none → p.request = none → windowOn s = false →
                  (∀ e ∈ s.ve.ringIn, ¬ (e.unit = b.val ∧ e.frame = x.nextId)) →
                  (let got := (bytes x.nextId g.w.toNat).take room
                   (∀ k y, ChosenTarget p (holdsLastRead p) k → p.buffers[k]? = some y → ∃ f,
                      t.ve.bindings[b].frames.getLast? = some f
                      ∧ f = { id := x.nextId, sequence := g.sequence, repeatNo := g.repeatNo.toNat, w := g.w.toNat
                              extent := off + px, closed := decide (i + 1 = g.count.toNat), target := .buffer k
                              flags := { gapped := decide (0 < i), incomplete := decide (0 < i), overrun := decide (room < px)
                                         clipped := decide ((got.filterMap (placed y)).length < got.length) } }
                      ∧ t.ve.ringIn = s.ve.ringIn ++ got.filterMap (placed y)
                      ∧ t.ve.bindings[b].asm = (if i + 1 = g.count.toNat then .closed else .openA)
                      ∧ TargetTaken (recvPool b) { repeatNo := g.repeatNo.toNat, width := g.w.toNat, firstPos := 0
                                                   sequence := some g.sequence } k s t)
                   ∧ ((∀ k, ¬ ChosenTarget p (holdsLastRead p) k) →
                      (∀ f ∈ t.ve.bindings[b].frames, f.id ≠ x.nextId) ∧ t.ve.ringIn = s.ve.ringIn
                      ∧ t.ve.bindings[b].asm = (if i + 1 = g.count.toNat then .closed else .skipping)
                      ∧ TargetSkipped (recvPool b) s t)))
               ∧ (p.configured = true → p.pendingTarget = none → p.request = none → windowOn s = true → ∃ f,
                  t.ve.bindings[b].frames.getLast? = some f ∧ f.id = x.nextId ∧ f.sequence = g.sequence
                  ∧ f.repeatNo = g.repeatNo.toNat ∧ f.w = g.w.toNat ∧ f.extent = off + px ∧ f.target = .waiting
                  ∧ f.closed = decide (i + 1 = g.count.toNat)
                  ∧ f.flags = { gapped := decide (0 < i), incomplete := decide (0 < i), overrun := decide (room < px) }
                  ∧ t.ve.ringIn = s.ve.ringIn ++ (bytes x.nextId g.w.toNat).take room
                  ∧ t.ve.bindings[b].asm = (if i + 1 = g.count.toNat then .closed else .openA)
                  ∧ TargetAwaited (recvPool b) { repeatNo := g.repeatNo.toNat, width := g.w.toNat, firstPos := 0
                                                 sequence := some g.sequence } s t))
            ∧ t = { s with pm := t.pm, wc := t.wc
                           ve := { s.ve with ringIn := t.ve.ringIn
                                             bindings := s.ve.bindings.set b t.ve.bindings[b] } })))))
  ∧ ∀ (b : Fin 4) (s : State),
    (s.ve.bindings[b].asm ≠ .openA ∨ s.ve.bindings[b].idle < s.ve.bindings[b].timeout →
      exec (.receiveTimeout b) s = .next s)
    ∧ (s.ve.bindings[b].asm = .openA → s.ve.bindings[b].timeout ≤ s.ve.bindings[b].idle → ∃ t,
      exec (.receiveTimeout b) s = .next t ∧ t.ve.bindings[b].asm = .closed
      ∧ t.ve.bindings[b].timeouts = s.ve.bindings[b].timeouts + 1
      ∧ (∀ f ∈ t.ve.bindings[b].frames.getLast?, f.closed = true ∧ f.flags.incomplete = true)
      ∧ t.ve.bindings[b].frames.length = s.ve.bindings[b].frames.length
      ∧ t = { s with ve := { s.ve with bindings := s.ve.bindings.set b t.ve.bindings[b] } })

/-! ### The screen port -/

/-- R140, R141, R163, R164, R166, R167, R169, R170, R171, R172, R173, R174: the frame start with the buffers its panes select,
the active end, and the PWM period. The order of the panes (log entry 77), and of several flips at one frame start (log entry
78), is the model's choice. -/
def Obligations.ScreenFrames : Prop :=
  ∀ s : State,
    (s.sc.enabled = false → exec .screenFrameStart s = .next s ∧ exec .activeEnd s = .next s)
    ∧ (s.sc.position ≠ some (s.sc.height + s.sc.vFront + s.sc.vSync + s.sc.vBack, 0) → exec .screenFrameStart s = .next s)
    ∧ (s.sc.enabled = true → s.sc.position = some (s.sc.height + s.sc.vFront + s.sc.vSync + s.sc.vBack, 0) →
      ∃ t, exec .screenFrameStart s = .next t
      ∧ t.sc.position = some (0, 0) ∧ t.sc.running = 0xFFFF ∧ t.sc.latched = false ∧ t.sc.fifo = []
      ∧ (∀ r ∈ t.sc.reads, r = []) ∧ t.sc.reads.length = s.sc.reads.length ∧ t.sc.enabled = true
      ∧ t.sc.alarm = decide (effLevel s = .stop ∨ effLevel s = .cut)
      ∧ (∀ i : Fin 4,
          t.sc.panes[i].inForce = s.sc.panes[i].waiting.getD s.sc.panes[i].inForce ∧ t.sc.panes[i].waiting = none
          ∧ t.sc.panes[i].flip = none
          ∧ t.sc.panes[i].shownB = (if s.sc.panes[i].flip.isSome ∧ t.sc.panes[i].inForce.host then !s.sc.panes[i].shownB
              else s.sc.panes[i].shownB)
          ∧ (∀ e, s.sc.panes[i].flip = some e → (∀ j : Fin 4, j ≠ i → s.sc.panes[j].flip ≠ some e) →
              (∀ k : Fin 2, s.sc.loads[k].cell ≠ some e) →
              EndsWith s t e { code := if t.sc.panes[i].inForce.host then .ok else .cancelled, clamped := false
                               data := [if t.sc.panes[i].shownB then 1 else 0] })
          ∧ (t.sc.panes[i].inForce.enable = false → t.sc.panes[i].source = none ∧ t.sc.panes[i].held = none)
          ∧ (t.sc.panes[i].inForce.enable = true → t.sc.panes[i].inForce.host = false →
              (NoneEligible s t.sc.panes[i].inForce.pool t.sc.panes[i].inForce.incomplete none →
                t.sc.panes[i].held = none ∧ t.sc.panes[i].source = none)
              ∧ ∀ b y, NewestEligible s t.sc.panes[i].inForce.pool t.sc.panes[i].inForce.incomplete none b y →
                t.sc.panes[i].held = some (t.sc.panes[i].inForce.pool, b)
                ∧ t.sc.panes[i].source = some { address := y.address, stride := y.stride, width := min y.width y.stride
                                                rows := y.rows })
          ∧ (t.sc.panes[i].inForce.enable = true → t.sc.panes[i].inForce.host = true →
              t.sc.panes[i].held = none ∧ t.sc.panes[i].source = some
                { address := if t.sc.panes[i].shownB then t.sc.panes[i].inForce.bufB else t.sc.panes[i].inForce.bufA
                  stride := t.sc.panes[i].inForce.hostStride
                  width := min t.sc.panes[i].inForce.hostWidth t.sc.panes[i].inForce.hostStride
                  rows := t.sc.panes[i].inForce.hostRows }))
      ∧ (∀ (p : Fin 6) (b : Nat) (y : Buffer), s.pm.pools[p].buffers[b]? = some y →
          (let holding := fun u : State =>
            ((List.finRange 4).filter fun i : Fin 4 => decide (u.sc.panes[i].held = some (p, b))).length
           holding s ≤ y.readers →
            t.pm.pools[p].buffers[b]? = some { y with readers := y.readers - holding s + holding t }))
      ∧ t.sc.dutyFormed =
          (let c := if t.sc.alarm then max s.sc.code s.sc.alarmMin else s.sc.code
           if s.sc.square then c * c * 4095 / 65025 else c * 4095 / 255)
      ∧ (∀ (i : Fin 2) e, s.sc.loads[i].state = .complete → s.sc.loads[i].cell = some e →
          (∀ j : Fin 4, s.sc.panes[j].flip ≠ some e) → (∀ k : Fin 2, k ≠ i → s.sc.loads[k].cell ≠ some e) →
          EndsWith s t e (resultOk []))
      ∧ (∀ i : Fin 2, (s.sc.loads[i].state = .complete → t.sc.palettes[i] = s.sc.loads[i].store ∧ t.sc.loads[i].cell = none)
          ∧ (s.sc.loads[i].state ≠ .complete → t.sc.palettes[i] = s.sc.palettes[i]))
      ∧ t.sc.frames = s.sc.frames ∧ t.sc.signature = s.sc.signature ∧ t.sc.duty = s.sc.duty
      ∧ t = { s with pm := t.pm, sc := t.sc, wc := t.wc })
    ∧ (∀ line p, s.sc.enabled = true → s.sc.position = some (line, p) → exec .activeEnd s = .next
        (if s.sc.latched = false ∧ (s.sc.vSync + s.sc.vBack + s.sc.height ≤ line
            ∨ (s.sc.vSync + s.sc.vBack + s.sc.height = line + 1 ∧ s.sc.hSync + s.sc.hBack + s.sc.width ≤ p)) then
          { s with sc := { s.sc with signature := s.sc.running, frames := s.sc.frames + 1, latched := true } }
         else s))
    ∧ (s.sc.position = none → exec .activeEnd s = .next s)
    ∧ exec .pwmPeriodStart s = .next { s with sc := { s.sc with
        duty := if s.sc.enabled then s.sc.dutyFormed else 0
        blpwm := decide (s.sc.enabled = true ∧ 0 < s.sc.dutyFormed) } }

/-- R161, R164, R168, R170, R171, R173, R174: one pixel clock, the data of a pane read, and the end of a palette load with the
result of its cell (R180, R188). That PCLK stands high from a pixel on (log entry 46), and that pane reads end in the order in
which they were issued (log entry 67), are the model's choices. -/
def Obligations.PixelsAndReads : Prop :=
  ∀ s : State,
    (s.sc.enabled = false ∨ s.sc.position = none
        ∨ (∃ line p, s.sc.position = some (line, p) ∧ s.sc.height + s.sc.vFront + s.sc.vSync + s.sc.vBack ≤ line) →
      exec .screenPixel s = .next s)
    ∧ (∀ line p, s.sc.enabled = true → s.sc.position = some (line, p) →
      line < s.sc.height + s.sc.vFront + s.sc.vSync + s.sc.vBack → ∃ t, exec .screenPixel s = .next t
      ∧ t.sc.hs = decide (p < s.sc.hSync) ∧ t.sc.vs = decide (line < s.sc.vSync)
      ∧ (let x0 := s.sc.hSync + s.sc.hBack
         let y0 := s.sc.vSync + s.sc.vBack
         let active := x0 ≤ p ∧ p < x0 + s.sc.width ∧ y0 ≤ line ∧ line < y0 + s.sc.height
         (¬ active → t.sc.de = false ∧ t.sc.rgb = 0 ∧ t.sc.running = s.sc.running ∧ t.sc.underruns = s.sc.underruns
            ∧ t.sc.fifo = s.sc.fifo)
         ∧ (active → t.sc.de = true
            ∧ t.sc.running = crc16From s.sc.running
                [t.sc.rgb.extractLsb' 16 8, t.sc.rgb.extractLsb' 8 8, t.sc.rgb.extractLsb' 0 8]
            ∧ (needAt s.sc (p - x0) (line - y0) = none →
                t.sc.rgb = s.sc.fill ∧ t.sc.underruns = s.sc.underruns ∧ t.sc.fifo = s.sc.fifo)
            ∧ ∀ n, needAt s.sc (p - x0) (line - y0) = some n →
                (0 < s.sc.panes[n.pane].inForce.zoom →
                    (∃ q, p - x0 < q ∧ needAt s.sc q (line - y0) = some n) → t.sc.fifo = s.sc.fifo)
                ∧ ((∀ q, p - x0 < q → needAt s.sc q (line - y0) ≠ some n) →
                    t.sc.fifo = s.sc.fifo.filter fun e => decide (e.1 ≠ n))
                ∧ (fifoByte s.sc n = none → t.sc.rgb = s.sc.fill ∧ t.sc.underruns = s.sc.underruns + 1)
                ∧ ∀ b, fifoByte s.sc n = some b → t.sc.underruns = s.sc.underruns
                    ∧ t.sc.rgb = (s.sc.palettes[if s.sc.panes[n.pane].inForce.tint && s.sc.alarm then (1 : Fin 2)
                        else 0]).getD b.toNat 0))
      ∧ t.sc.position = some (if p + 1 < s.sc.width + s.sc.hFront + s.sc.hSync + s.sc.hBack then (line, p + 1)
          else (line + 1, 0))
      ∧ t.sc.pclk = true
      ∧ t = { s with sc := { s.sc with pclk := true, hs := t.sc.hs, vs := t.sc.vs, de := t.sc.de, rgb := t.sc.rgb
                                       position := t.sc.position, running := t.sc.running, fifo := t.sc.fifo
                                       underruns := t.sc.underruns } })
    ∧ (∀ data : List Byte, s.sc.reads = [] → exec (.screenReadReturn data) s = .next s)
    ∧ (∀ (data : List Byte) ns rest, s.sc.reads = ns :: rest → exec (.screenReadReturn data) s = .next
        { s with sc := { s.sc with
          reads := rest
          fifo := s.sc.fifo ++ (ns.zip (padTo ns.length data)).filter fun e => stillNeeded s.sc e.1 } })
    ∧ ∀ (i : Fin 2) (data : List Byte),
      (let l := s.sc.loads[i]
       (l.state ≠ .reading ∨ l.issued < 768 → exec (.paletteReadDone i data) s = .next s)
       ∧ (l.state = .reading → 768 ≤ l.issued → ∃ t, exec (.paletteReadDone i data) s = .next t
          ∧ (l.busError = true → t.sc = { s.sc with loads := s.sc.loads.set i { l with state := .idle, cell := none } }
              ∧ ∀ e, l.cell = some e → EndsWith s t e { code := .cancelled, clamped := false, data := [1] })
          ∧ (l.busError = false → s.sc.enabled = true → t.wc = s.wc
              ∧ t.sc = { s.sc with
                  loads := s.sc.loads.set i { l with state := .complete, store := t.sc.loads[i].store } }
              ∧ ∀ k, k < 256 → t.sc.loads[i].store[k]? = some
                  (data.getD (3 * k) 0 ++ data.getD (3 * k + 1) 0 ++ data.getD (3 * k + 2) 0 : BitVec 24))
          ∧ (l.busError = false → s.sc.enabled = false → (∀ e, l.cell = some e → EndsWith s t e (plainResult .ok))
              ∧ t.sc = { s.sc with
                  palettes := s.sc.palettes.set i t.sc.palettes[i]
                  loads := s.sc.loads.set i { l with state := .idle, cell := none, store := t.sc.palettes[i] } }
              ∧ ∀ k, k < 256 → t.sc.palettes[i][k]? = some
                  (data.getD (3 * k) 0 ++ data.getD (3 * k + 1) 0 ++ data.getD (3 * k + 2) 0 : BitVec 24))
          ∧ (l.cell = none → t.wc = s.wc) ∧ t.wc = { s.wc with records := t.wc.records, queue := t.wc.queue }
          ∧ (∀ c : Fin 16, l.cell ≠ some c → t.wc.records[c] = s.wc.records[c])
          ∧ t = { s with sc := t.sc, wc := t.wc }))

/-! ### The memory port and the shared window -/

/-- R173, R185, R186: what each requester presents, by the marks of the screen and of the cameras, the 1024 bytes of ring-in,
the publish writes of the window and the source bytes of ring-out; a grant goes to the first requester in the fixed order that
presents high, else to the first that presents low, and carries its transaction. That the bytes of a camera's or ring-in's write
stay on their way at the grant of the read that reports it, and that a window write enters memory at its grant (log entry 32),
which of its transactions a requester presents (log entry 40), when it presents the reporting read (log entry 41), how a unit of
64 bytes that is begun counts toward a mark (log entry 66), that bytes on their way count in the screen FIFO's fill (log entry
75), how pane bytes and palette bytes are split into reads (log entries 96 and 97), that palette 0's reads go first (log entry
98), and the level of a reporting read (log entry 101), are the model's choices. -/
def Obligations.GrantsInOrder : Prop :=
  ∀ s : State,
    LevelsFormed s
    ∧ ((∀ r, levelOf s r = .quiet) → exec .grant s = .next s)
    ∧ ∀ (r : Requester) (before after : List Requester),
      (if s.mp.camerasFirst then [Requester.camera0, .camera1, .screen, .ringIn, .window, .ringOut]
       else [Requester.screen, .camera0, .camera1, .ringIn, .window, .ringOut]) = before ++ r :: after →
      ((levelOf s r = .high ∧ ∀ q ∈ before, levelOf s q ≠ .high)
        ∨ (levelOf s r = .low ∧ (∀ q, levelOf s q ≠ .high) ∧ ∀ q ∈ before, levelOf s q ≠ .low)) →
      ∃ t, exec .grant s = .next t
        ∧ t.mp = { s.mp with
            screen := s.mp.screen + (if r = .screen then 1 else 0), camera0 := s.mp.camera0 + (if r = .camera0 then 1 else 0)
            camera1 := s.mp.camera1 + (if r = .camera1 then 1 else 0), ringIn := s.mp.ringIn + (if r = .ringIn then 1 else 0)
            window := s.mp.window + (if r = .window then 1 else 0)
            ringOut := s.mp.ringOut + (if r = .ringOut then 1 else 0) }
        ∧ (r = .window → ∃ x rest, s.wc.queue = x :: rest ∧ t = { s with
            mp := t.mp, wc := { s.wc with queue := rest }, mem := memWriteBytes s.mem x.addr x.bytes })
        ∧ (r = .screen → t = { s with mp := t.mp, sc := t.sc }
            ∧ (¬ (ScreenFetches s s.mp.scrUrgent ∨ ScreenFetches s s.mp.scrLow) → PaletteReadIssued s.sc t.sc)
            ∧ (ScreenFetches s s.mp.scrUrgent ∨ ScreenFetches s s.mp.scrLow → PaneReadIssued s.sc t.sc))
        ∧ (r = .ringOut → t = { s with mp := t.mp, ve := t.ve } ∧ SourceReadIssued s.ve t.ve)
        ∧ (∀ u : Fin 2, r = (if u = 0 then .camera0 else .camera1) →
            let n := s.cu[u].fifo.length - t.cu[u].fifo.length
            (CameraReady s u → 0 < n ∧ n ≤ 256 ∧ t.cu[u].fifo = s.cu[u].fifo.drop n
              ∧ ∃ b rest a, s.cu[u].fifo = b :: rest ∧ b.addr = some a
                ∧ (∀ (k : Nat) y, k < n → s.cu[u].fifo[k]? = some y → y.frame = b.frame ∧ y.unit = b.unit
                    ∧ y.addr = some (a + BitVec.ofNat 64 k) ∧ (0 < k → (a + BitVec.ofNat 64 k).toNat % 256 ≠ 0))
                ∧ t.cu[u].flight = s.cu[u].flight
                    ++ [{ unit := b.unit, frame := b.frame, addr := a, bytes := (s.cu[u].fifo.take n).map (·.byte)
                          asked := 0 }])
            ∧ (¬ CameraReady s u → t.cu[u].fifo = s.cu[u].fifo
              ∧ t.cu[u].flight = s.cu[u].flight.map fun w => { w with asked := w.asked + 1 })
            ∧ t = { s with mp := t.mp
                           cu := s.cu.set u { s.cu[u] with fifo := t.cu[u].fifo, flight := t.cu[u].flight } })
        ∧ (r = .ringIn →
            let n := s.ve.ringIn.length - t.ve.ringIn.length
            (RingInReady s → 0 < n ∧ n ≤ 256 ∧ t.ve.ringIn = s.ve.ringIn.drop n
              ∧ ∃ b rest a, s.ve.ringIn = b :: rest ∧ b.addr = some a
                ∧ (∀ (k : Nat) y, k < n → s.ve.ringIn[k]? = some y → y.frame = b.frame ∧ y.unit = b.unit
                    ∧ y.addr = some (a + BitVec.ofNat 64 k) ∧ (0 < k → (a + BitVec.ofNat 64 k).toNat % 256 ≠ 0))
                ∧ t.ve.flight = s.ve.flight
                    ++ [{ unit := b.unit, frame := b.frame, addr := a, bytes := (s.ve.ringIn.take n).map (·.byte)
                          asked := 0 }])
            ∧ (¬ RingInReady s → t.ve.ringIn = s.ve.ringIn
              ∧ t.ve.flight = s.ve.flight.map fun w => { w with asked := w.asked + 1 })
            ∧ t = { s with mp := t.mp
                           ve := { s.ve with ringIn := t.ve.ringIn, flight := t.ve.flight } })

/-- R123, R151, R158, R160, R170, R173, R186, R187: what a bus error does, by the requester it strikes. That a write stays in
flight, and can end in a bus error, until the read that reports it has returned (log entries 32 and 41), what a window fault
makes of a fill-target request (log entry 38), that an error of a pane read strikes the oldest one (log entry 67), that a palette
load goes on reading after one (log entry 76), and that one of window traffic while the window is closed is ignored (log entry
100), are the model's choices. -/
def Obligations.BusErrorsHandled : Prop :=
  ∀ s : State,
    (∀ (u : Fin 2) (i : Nat),
      (s.cu[u].flight[i]? = none → exec (.busError (.camera u i)) s = .next s)
      ∧ ∀ w, s.cu[u].flight[i]? = some w → exec (.busError (.camera u i)) s = .next { s with
          cu := s.cu.set u { s.cu[u] with
            flight := s.cu[u].flight.eraseIdx i
            frames := s.cu[u].frames.map (fun f =>
              if f.id = w.frame then { f with flags := { f.flags with overrun := true } } else f) } })
    ∧ (∀ i : Nat,
      (s.ve.flight[i]? = none → exec (.busError (.ringIn i)) s = .next s)
      ∧ ∀ w (b : Fin 4), s.ve.flight[i]? = some w → w.unit = b.val → exec (.busError (.ringIn i)) s = .next { s with
          ve := { s.ve with
            flight := s.ve.flight.eraseIdx i
            bindings := s.ve.bindings.set b { s.ve.bindings[b] with
              frames := s.ve.bindings[b].frames.map (fun f =>
                if f.id = w.frame then { f with flags := { f.flags with overrun := true } } else f) } } })
    ∧ (∀ (v : Fin 4) (i : Nat), s.ve.views[v].current = none ∨ s.ve.views[v].prepared = none
          ∨ (∃ p, s.ve.views[v].prepared = some p ∧ p.issued.length ≤ i) →
        exec (.busError (.ringOut v i)) s = .next { s with ve := { s.ve with
          views := s.ve.views.set v { s.ve.views[v] with readErrors := s.ve.views[v].readErrors + 1 } } })
    ∧ (∀ (v : Fin 4) (i : Nat) f p r b, s.ve.views[v].current = some f → s.ve.views[v].prepared = some p →
        p.issued[i]? = some r → bufferAt s (viewPool s.ve.views[v].set) f.buffer = some b → ∃ t q,
        exec (.busError (.ringOut v i)) s = .next t ∧ t.ve.views[v].prepared = some q
        ∧ q = { p with zeroed := q.zeroed }
        ∧ t = { s with ve := { s.ve with
            views := s.ve.views.set v { s.ve.views[v] with
              readErrors := s.ve.views[v].readErrors + 1, prepared := some q } } }
        ∧ ∀ k : Nat, k ∈ q.zeroed ↔ k ∈ p.zeroed
            ∨ (k < segmentBytes s.ve.views[v].set f f.next ∧ cellTouches s.ve.views[v].set f b r k = true))
    ∧ (s.sc.reads = [] → exec (.busError .screenPane) s = .next s)
    ∧ (∀ ns rest, s.sc.reads = ns :: rest → exec (.busError .screenPane) s = .next
        { s with sc := { s.sc with reads := rest, readErrors := s.sc.readErrors + 1 } })
    ∧ (∀ i : Fin 2, ∃ t, exec (.busError (.screenPalette i)) s = .next t
      ∧ t.sc.loads[i] = { s.sc.loads[i] with
          busError := s.sc.loads[i].busError || decide (s.sc.loads[i].state = .reading) }
      ∧ t = { s with sc := { s.sc with loads := s.sc.loads.set i t.sc.loads[i] } })
    ∧ (s.wc.fault = true ∨ s.wc.winbase = 0 → exec (.busError .window) s = .next s)
    ∧ (s.wc.fault = false → s.wc.winbase ≠ 0 → ∃ t, exec (.busError .window) s = .next t
      ∧ t.wc.fault = true ∧ t.wc.faults = s.wc.faults + 1 ∧ t.wc.queue = [] ∧ t.wc.scanning = false ∧ t.wc.publish = .idle
      ∧ t.wc.mirror = none ∧ t.wc.attn.getLsbD 4 = true ∧ t.wc.winbase = s.wc.winbase
      ∧ findCond t .window 0 = some ⟨.window, 0, .note⟩ ∧ t.pm.work = [] ∧ t.wc.descRead = []
      ∧ (∀ (c : Fin 16) r, s.wc.records[c] = some r → t.wc.records[c] = some { r with phase := .kept })
      ∧ (∀ c : Fin 16, s.wc.records[c] = none → t.wc.records[c] = none)
      ∧ (∀ p : Fin 6, t.pm.pools[p].request = none)
      ∧ t = { s with cu := t.cu, tc := t.tc, pm := t.pm, ve := t.ve, wc := t.wc })

/-- R180, R182, R183, R184: the final write of a cell, the two steps of a publish, and the end of a mirror rewrite. That the
row of the final write stands for two events, the issue of the state byte and its landing, is the model's choice (log entry
26), and so is the moment of the node state in a publish header (log entry 80). -/
def Obligations.WindowWritesComplete : Prop :=
  ∀ s : State,
    (∀ c : Fin 16,
      (windowOn s = false ∨ landed s (.cell c) = false
          ∨ (∀ r, s.wc.records[c] = some r → r.result = none ∨ r.phase = .kept) → exec (.finalWrite c) s = .next s)
      ∧ ∀ r res, s.wc.records[c] = some r → r.result = some res → windowOn s = true → landed s (.cell c) = true →
          (r.phase = .fields → exec (.finalWrite c) s = .next { s with wc := { s.wc with
            records := s.wc.records.set c (some { r with phase := .final })
            queue := s.wc.queue
              ++ [writeItem s (.cell c) false (0x400 + 64 * c.val) [if res.code = .ok then 3 else 4],
                  flushItem s (.cell c) false] } })
          ∧ (r.phase = .final → ∃ t, exec (.finalWrite c) s = .next t ∧ t.wc.attn = s.wc.attn ||| 1
            ∧ t = { s with wc := { s.wc with
                records := s.wc.records.set c none, attn := t.wc.attn, messages := t.wc.messages } }))
    ∧ (∀ n, s.wc.publish = .page n → windowOn s = true → landed s .page = true → ∃ t, exec .publishPageLanded s = .next t
        ∧ t.wc.currentB = !s.wc.currentB ∧ t.wc.publishCount = s.wc.publishCount + 1 ∧ t.wc.publish = .header
        ∧ t.wc.header = { nodeState := s.ct.nodeState, pageB := !s.wc.currentB, cycle := n
                          publishCount := s.wc.publishCount + 1, version := s.wc.header.version, attn := s.wc.attn }
        ∧ t.wc.queue = s.wc.queue ++ [writeItem s .publishHeader true 0 (headerBytes t.wc.header),
            flushItem s .publishHeader true]
        ∧ t = { s with wc := { s.wc with currentB := t.wc.currentB, publishCount := t.wc.publishCount
                                         publish := t.wc.publish, header := t.wc.header, queue := t.wc.queue } })
    ∧ ((∀ n, s.wc.publish ≠ .page n) ∨ windowOn s = false ∨ landed s .page = false →
        exec .publishPageLanded s = .next s)
    ∧ (s.wc.publish = .header → windowOn s = true → landed s .publishHeader = true → ∃ t, exec .publishEnd s = .next t
        ∧ t.wc.attn = s.wc.attn ||| 32
        ∧ t = { s with wc := { s.wc with publish := .idle, attn := t.wc.attn, messages := t.wc.messages } })
    ∧ (s.wc.publish ≠ .header ∨ windowOn s = false ∨ landed s .publishHeader = false →
        exec .publishEnd s = .next s)
    ∧ (∀ m, s.wc.mirror = some m → windowOn s = true → landed s .mirror = true → ∃ t, exec .mirrorRewriteEnd s = .next t
        ∧ (m.stale = false → t.wc.mirror = none ∧ t.wc.header = { s.wc.header with version := m.version }
            ∧ t.wc.queue = s.wc.queue ++ [writeItem s .plain false 0 (headerBytes t.wc.header)])
        ∧ (m.stale = true → t.wc.mirror = some { version := s.wc.version, stale := false }
            ∧ t.wc.header = { s.wc.header with version := 0 }
            ∧ t.wc.queue = s.wc.queue
                ++ [writeItem s .plain false 0 (headerBytes { s.wc.header with version := m.version }),
                    writeItem s .plain false 0 (headerBytes t.wc.header)]
                ++ kibItems s .mirror false 0x1000 (mirrorBytes s.tc.table) ++ [flushItem s .mirror false])
        ∧ t = { s with wc := { s.wc with mirror := t.wc.mirror, header := t.wc.header, queue := t.wc.queue } })
    ∧ (s.wc.mirror = none ∨ windowOn s = false ∨ landed s .mirror = false → exec .mirrorRewriteEnd s = .next s)

/-! ### Host commands. Each is taken from a cell whose record is free. -/

/-- R178, R180 and section 1.9 of 00_scope.md: the WC leaves a cell alone while its record holds a command; a code that names no
command is refused; a command that its owner refuses changes nothing but its cell. -/
def Obligations.CellsHeldAndRefused : Prop :=
  ∀ (cell : Fin 16) (tag : Half) (s : State),
    (∀ cmd : BoardCmd, (s.wc.records[cell]).isSome → exec (hostRow cell tag cmd) s = .next s)
    ∧ (∀ code : Byte, s.wc.records[cell] = none →
        exec (.unknown cell tag code) s = .next (s.refused cell tag (.unknown code) .unknown))
    ∧ ∀ (cmd : BoardCmd) (r : Result), s.wc.records[cell] = none →
        (ownerOf cmd cell (s.taken cell tag cmd)).2 = .result r → r.code ≠ .ok →
        exec (hostRow cell tag cmd) s = .next (s.answer cell tag cmd r)

/-- R179, R180, R188: a board scan takes the POSTED cells in index order, each as the row of its command, read from the cell's
bytes; where a SET_POOL to be taken still lacks its descriptors, their reads are issued first, and the scan waits for them.
That one row stands for the return of the board reads and for that of the descriptor reads is the model's choice (log entry
57). -/
def Obligations.BoardScanTakesCells : Prop :=
  ∀ (cells : List CellImage) (s : State), cells.length = 16 →
    (windowOn s = false ∨ s.wc.scanning = false ∨ landed s .scan = false → exec (.boardScan cells) s = .next s)
    ∧ (windowOn s = true → s.wc.scanning = true → landed s .scan = true →
      (let command := fun x : CellImage => decodeCell x.code x.params x.descs
       let due : List (Fin 16 × Nat × Nat) := (List.finRange 16).filterMap fun c : Fin 16 =>
         match cells[c.val]?.map fun x => (x.state, command x) with
         | some (state, .setPool p _) =>
           if state = 1 ∧ s.wc.records[c] = none ∧ c ∉ s.wc.descRead ∧ p.pool.toNat < 6 ∧ 2 ≤ p.count.toNat
              ∧ p.count.toNat ≤ 8 then some (c, p.pool.toNat, p.count.toNat) else none
         | _ => none
       (due ≠ [] → exec (.boardScan cells) s = .next { s with wc := { s.wc with
          descRead := s.wc.descRead ++ due.map (·.1)
          queue := s.wc.queue ++ due.flatMap fun d => (List.range d.2.2).map fun b : Nat =>
            (⟨.scan, false, windowAddr s (0x1400 + (8 * d.2.1 + b) * 32), []⟩ : WinItem) } })
       ∧ (due = [] → exec (.boardScan cells) s = (List.finRange 16).foldl
          (fun (o : Host.Outcome State Fault Refusal) (c : Fin 16) => match o, cells[c.val]? with
            | .next u, some x => if x.state = 1 then exec (hostRow c x.tag (command x)) u else .next u
            | o, _ => o)
          (.next { s with wc := { s.wc with scanning := false, descRead := [] } }))))

/-- R2, R17, R185: SET_CYCLE, SET_HOLDOVER and SET_MEMORY_ORDER. -/
def Obligations.SettingsStored : Prop :=
  ∀ (cell : Fin 16) (tag : Half) (s : State), s.wc.records[cell] = none →
    (∀ p : SetCycleP,
      (3 < p.code.toNat → exec (.setCycle cell tag p) s = .next (s.refused cell tag (.setCycle p) .badParam))
      ∧ ∀ period, periodOf p.code = some period → exec (.setCycle cell tag p) s = .next
        (if ¬ (p.pIn.toNat + 10 < p.pCo.toNat ∧ p.pCo.toNat + 20 < p.pIs.toNat ∧ p.pIs.toNat < Period.us period) then
          s.refused cell tag (.setCycle p) .badParam
         else if s.straps.master = false ∧ period ≠ s.ct.period then s.refused cell tag (.setCycle p) .notMaster
         else if period ≠ s.ct.period ∧ (s.ag.lineState = .running ∨ s.ag.lineState = .stopping) then
          s.refused cell tag (.setCycle p) .wrongState
         else { s.answer cell tag (.setCycle p) (resultOk []) with
          ct := { s.ct with
            pendingCycle := some { period := period, pIn := p.pIn.toNat, pCo := p.pCo.toNat, pIs := p.pIs.toNat } } }))
    ∧ (∀ p : SetMemoryOrderP, exec (.setMemoryOrder cell tag p) s = .next
      (if 1 < p.camerasFirst.toNat ∨ p.camLow = 0 ∨ 128 < p.camLow.toNat ∨ p.camHigh = 0 ∨ 128 < p.camHigh.toNat
          ∨ 63 < p.scrLow.toNat ∨ 63 < p.scrUrgent.toNat ∨ p.camHigh.toNat < p.camLow.toNat
          ∨ p.scrLow.toNat < p.scrUrgent.toNat then s.refused cell tag (.setMemoryOrder p) .badParam
       else
        { s.answer cell tag (.setMemoryOrder p) (resultOk []) with
          mp := { s.mp with camerasFirst := decide (p.camerasFirst = 1), camLow := p.camLow.toNat
                            camHigh := p.camHigh.toNat, scrLow := p.scrLow.toNat, scrUrgent := p.scrUrgent.toNat } }))
    ∧ ∀ p : SetHoldoverP, exec (.setHoldover cell tag p) s = .next
        (if 1 ≤ p.limit.toNat ∧ p.limit.toNat ≤ 8 then
          { s.answer cell tag (.setHoldover p) (resultOk []) with
            ct := { s.ct with pendingHoldover := some (p.lead.toNat, p.limit.toNat) } }
         else s.refused cell tag (.setHoldover p) .badParam)

/-- R10, R11, R108: the commands of the line axis. -/
def Obligations.LineCommands : Prop :=
  ∀ (cell : Fin 16) (tag : Half) (s : State), s.wc.records[cell] = none →
    (∀ d : Word, exec (.setLineSpeed cell tag d) s = .next
      (let v : Int := max (-(s.ag.vRev : Int)) (min (s.ag.vMax : Int) d.toInt)
       if s.straps.master = false then s.refused cell tag (.setLineSpeed d) .notMaster
       else if s.tc.lineTerm = .stop ∨ s.tc.lineTerm = .cut ∨ s.ag.lineState = .stopping ∨ s.ag.lineState = .halted
          ∨ s.ag.lineState = .torqueOff then s.refused cell tag (.setLineSpeed d) .tripped
       else
        { s.answer cell tag (.setLineSpeed d) ⟨.ok, decide (v ≠ d.toInt), leSigned 4 v⟩ with
          ag := { s.ag with demand := v } }))
    ∧ (∀ p : SetLineLimitsP, exec (.setLineLimits cell tag p) s = .next
      (let v : Int := max (-(p.vRev.toNat : Int)) (min (p.vMax.toNat : Int) s.ag.demand)
       if 4194304 < p.vMax.toNat ∨ 4194304 < p.vRev.toNat ∨ p.aUp = 0 ∨ p.aDown = 0 ∨ p.aStop = 0 then
        s.refused cell tag (.setLineLimits p) .badParam
       else
        { s.answer cell tag (.setLineLimits p) ⟨.ok, decide (v ≠ s.ag.demand), []⟩ with
          ag := { s.ag with demand := v, vMax := p.vMax.toNat, vRev := p.vRev.toNat, aUp := p.aUp.toNat
                            aDown := p.aDown.toNat, aStop := p.aStop.toNat } }))
    ∧ exec (.lineRearm cell tag) s = .next
      (if s.straps.master = false then s.refused cell tag .lineRearm .notMaster
       else if s.ag.lineState ≠ .halted ∧ s.ag.lineState ≠ .torqueOff then s.refused cell tag .lineRearm .wrongState
       else if lineLevel s = .stop ∨ lineLevel s = .cut then s.refused cell tag .lineRearm .tripped
       else { s.answer cell tag .lineRearm (resultOk [byte (lineLevel s).code]) with
          ag := { s.ag with lineState := .standstill } })

/-- R21: SET_SECTION. That BAD_PARAM for a value out of range comes before BUSY for a section in another state is the model's
choice (log entry 18). -/
def Obligations.SetSectionStores : Prop :=
  ∀ (cell : Fin 16) (tag : Half) (p : SetSectionP) (s : State), s.wc.records[cell] = none →
    (p.sect.toNat = 0 ∨ 4 < p.sect.toNat →
      exec (.setSection cell tag p) s = .next (s.refused cell tag (.setSection p) .badParam))
    ∧ ∀ i : Fin 4, p.sect.toNat = i.val + 1 → exec (.setSection cell tag p) s = .next
      (let x := s.gu.sections[i]
       if p.n = 0 ∨ p.m = 0 ∨ 32767 < p.m.toNat ∨ p.k = 0 ∨ 4096 < p.k.toNat ∨ p.maxStep = 0 ∨ 1048576 < p.maxStep.toNat
          ∨ p.g = 0 ∨ 4194304 < p.jogLimit.toNat ∨ 1000 < p.torqueLimit.toNat then
        s.refused cell tag (.setSection p) .badParam
       else if x.state ≠ .unset ∧ x.state ≠ .held then s.refused cell tag (.setSection p) .busy
       else
        { s.answer cell tag (.setSection p) (resultOk []) with
          gu := { s.gu with
            sections := s.gu.sections.set i
              { x with state := .held, n := p.n.toInt, m := p.m.toNat, base := p.base, trimStep := p.trimStep.toNat
                       k := p.k.toNat, maxStep := p.maxStep.toNat, g := p.g.toNat, jogLimit := p.jogLimit.toNat
                       torqueLimit := p.torqueLimit.toNat, r := 0 } } })

/-- R24, R57: ASSIGN_CHANNEL and CLEAR_CHANNEL_FAULT. What of a channel goes with its old drive address and what stays, beyond
A and the counters, is the model's choice (log entry 11). -/
def Obligations.ChannelCommands : Prop :=
  ∀ (cell : Fin 16) (tag : Half) (s : State), s.wc.records[cell] = none →
    (∀ (p : AssignChannelP) (i : Fin 12) (cls : TripClass) (j : Fin 4), p.channel.toNat = i.val →
      classOf p.cls = some cls → p.sect.toNat = j.val + 1 → 1 ≤ p.address.toNat → p.address.toNat ≤ 15 →
      1 ≤ p.followLimit.toNat → p.followLimit.toNat ≤ 16777216 → 1 ≤ p.followCount.toNat → p.followCount.toNat ≤ 15 →
      1 ≤ p.missLimit.toNat → p.missLimit.toNat ≤ 15 → exec (.assignChannel cell tag p) s = .next
      (let c := s.gu.channels[i]
       let set (d : Channel) : Channel := { d with
         sect := some j, address := some p.address.toNat, followLimit := p.followLimit.toNat
         followCount := p.followCount.toNat, missLimit := p.missLimit.toNat, cls := cls }
       if ∃ k : Fin 12, k ≠ i ∧ s.gu.channels[k].state ≠ .free ∧ s.gu.channels[k].address = some p.address.toNat then
        s.refused cell tag (.assignChannel p) .badParam
       else if c.state = .active ∨ c.state = .faulted then s.refused cell tag (.assignChannel p) .wrongState
       else if s.gu.sections[j].state = .unset then s.refused cell tag (.assignChannel p) .wrongState
       else { s.answer cell tag (.assignChannel p) (resultOk []) with
          gu := { s.gu with
            channels := s.gu.channels.set i
              (if c.state = .free then { set {} with state := .tracking }
               else if c.address = some p.address.toNat then set c
               else { set c with
                 a := 0, s := 0, s1 := 0, s2 := 0, fresh := false, followCtr := 0, noReplyCtr := 0, driveCtr := 0, present := {} }) } }))
    ∧ (∀ (p : AssignChannelP) (i : Fin 12), p.channel.toNat = i.val → (classOf p.cls).isSome → p.sect = 0xFF →
      1 ≤ p.address.toNat → p.address.toNat ≤ 15 → 1 ≤ p.followLimit.toNat → p.followLimit.toNat ≤ 16777216 →
      1 ≤ p.followCount.toNat → p.followCount.toNat ≤ 15 → 1 ≤ p.missLimit.toNat → p.missLimit.toNat ≤ 15 →
      (s.gu.channels[i].state = .active ∨ s.gu.channels[i].state = .faulted →
        exec (.assignChannel cell tag p) s = .next (s.refused cell tag (.assignChannel p) .wrongState))
      ∧ (s.gu.channels[i].state = .free →
        exec (.assignChannel cell tag p) s = .next (s.answer cell tag (.assignChannel p) (resultOk [])))
      ∧ (s.gu.channels[i].state = .tracking → ∃ t, exec (.assignChannel cell tag p) s = .next t
        ∧ t.gu = { s.gu with channels := s.gu.channels.set i {} } ∧ findCond t .channel i.val = none
        ∧ (findCond s .channel i.val = none → t.tc = s.tc)
        ∧ (findCond s .channel i.val ≠ none → ConditionGone s t .channel i.val)
        ∧ t.wc.records = s.answeredRecords cell tag (.assignChannel p) (resultOk [])
        ∧ t = { s with gu := t.gu, tc := t.tc, wc := t.wc }))
    ∧ (∀ p : AssignChannelP, 11 < p.channel.toNat ∨ p.cls = 0 ∨ 3 < p.cls.toNat ∨ p.sect = 0
        ∨ (4 < p.sect.toNat ∧ p.sect ≠ 0xFF) ∨ p.address = 0 ∨ 15 < p.address.toNat ∨ p.followLimit = 0
        ∨ 16777216 < p.followLimit.toNat ∨ p.followCount = 0 ∨ 15 < p.followCount.toNat ∨ p.missLimit = 0
        ∨ 15 < p.missLimit.toNat →
      exec (.assignChannel cell tag p) s = .next (s.refused cell tag (.assignChannel p) .badParam))
    ∧ (∀ x : Byte, 11 < x.toNat → x ≠ 0xFF →
      exec (.clearChannelFault cell tag x) s = .next (s.refused cell tag (.clearChannelFault x) .badParam))
    ∧ exec (.clearChannelFault cell tag 0xFF) s = .next
      (let left := fun (c : Channel) => (⟨c.flags.noReply && c.present.noReply, c.flags.following && c.present.following,
         c.flags.driveFault && c.present.driveFault⟩ : Faults)
       let out : Vector Channel 12 := Vector.ofFn fun k : Fin 12 =>
         let c := s.gu.channels[k]
         if c.state = .faulted then
           { c with flags := left c, state := if Faults.count (left c) = 0 then .tracking else .faulted }
         else c
       let total := fun (v : Vector Channel 12) => (v.toList.map fun c => Faults.count c.flags).sum
       let faulted := fun (v : Vector Channel 12) => (v.toList.filter fun c => decide (c.state = .faulted)).length
       if ∀ k : Fin 12, s.gu.channels[k].state ≠ .faulted then
         s.refused cell tag (.clearChannelFault 0xFF) .wrongState
       else if total s.gu.channels - total out = 0 then s.refused cell tag (.clearChannelFault 0xFF) .stillPresent
       else { s.answer cell tag (.clearChannelFault 0xFF)
            (resultOk (leBytes 4 (total s.gu.channels - total out)
              ++ leBytes 4 (faulted s.gu.channels - faulted out) ++ leBytes 4 (total out))) with
          gu := { s.gu with channels := out } })
    ∧ ∀ (x : Byte) (i : Fin 12), x.toNat = i.val → exec (.clearChannelFault cell tag x) s = .next
      (let c := s.gu.channels[i]
       let left : Faults := ⟨c.flags.noReply && c.present.noReply, c.flags.following && c.present.following,
         c.flags.driveFault && c.present.driveFault⟩
       let n := Faults.count c.flags - Faults.count left
       if c.state ≠ .faulted then s.refused cell tag (.clearChannelFault x) .wrongState
       else if n = 0 then s.refused cell tag (.clearChannelFault x) .stillPresent
       else { s.answer cell tag (.clearChannelFault x)
            (resultOk (leBytes 4 n ++ leBytes 4 (if Faults.count left = 0 then 1 else 0) ++ leBytes 4 (Faults.count left))) with
          gu := { s.gu with
            channels := s.gu.channels.set i
              { c with flags := left, state := if Faults.count left = 0 then .tracking else .faulted } } })

/-- R23, R25: TORQUE. That a section or direction out of range is refused before all else is the model's choice (log entry
18). -/
def Obligations.TorqueSwitches : Prop :=
  ∀ (cell : Fin 16) (tag : Half) (p : TorqueP) (s : State), s.wc.records[cell] = none →
    (p.sect.toNat = 0 ∨ 4 < p.sect.toNat ∨ 1 < p.on.toNat →
      exec (.torque cell tag p) s = .next (s.refused cell tag (.torque p) .badParam))
    ∧ ∀ i : Fin 4, p.sect.toNat = i.val + 1 →
      (let x := s.gu.sections[i]
       let count := fun (q : ChannelState) =>
         (s.gu.channels.toList.filter fun c => decide (c.sect = some i ∧ c.state = q)).length
       (p.on = 0 → exec (.torque cell tag p) s = .next
        (if x.state = .unset then s.refused cell tag (.torque p) .wrongState
         else { s.answer cell tag (.torque p) (resultOk (leBytes 4 (count .active))) with
          gu := { s.gu with channels := Vector.ofFn fun k : Fin 12 =>
            if s.gu.channels[k].sect = some i ∧ s.gu.channels[k].state = .active then
              { s.gu.channels[k] with state := .tracking, w := 0, c := 0, cRem := 1, join := false }
            else s.gu.channels[k] } }))
       ∧ (p.on = 1 → exec (.torque cell tag p) s = .next
        (if x.state = .unset then s.refused cell tag (.torque p) .wrongState
         else if x.state = .jogging ∨ x.state = .releasing then s.refused cell tag (.torque p) .busy
         else if effLevel s = .cut then s.refused cell tag (.torque p) .tripped
         else { s.answer cell tag (.torque p) (resultOk (leBytes 4 (count .tracking))) with
          gu := { s.gu with channels := Vector.ofFn fun k : Fin 12 =>
            if s.gu.channels[k].sect = some i ∧ s.gu.channels[k].state = .tracking then
              { s.gu.channels[k] with
                state := .active, hold := s.gu.channels[k].a
                join := decide ((x.state = .engaging ∨ x.state = .engaged) ∧ x.mark = false) }
            else s.gu.channels[k] } })))

/-- R33, R37: ENGAGE and DISENGAGE. That a section out of range is refused before all else is the model's choice (log entry
18). -/
def Obligations.EngageAndDisengage : Prop :=
  ∀ (cell : Fin 16) (tag : Half) (b : Byte) (s : State), s.wc.records[cell] = none →
    (b.toNat = 0 ∨ 4 < b.toNat → exec (.engage cell tag b) s = .next (s.refused cell tag (.engage b) .badParam)
      ∧ exec (.disengage cell tag b) s = .next (s.refused cell tag (.disengage b) .badParam))
    ∧ ∀ i : Fin 4, b.toNat = i.val + 1 →
      (let x := s.gu.sections[i]
       let y := { x with disengageCells := x.disengageCells ++ [cell] }
       let channels : Vector Channel 12 := Vector.ofFn fun k : Fin 12 =>
         if s.gu.channels[k].sect = some i then { s.gu.channels[k] with w := 0, c := 0, cRem := 1, join := false }
         else s.gu.channels[k]
       exec (.engage cell tag b) s = .next
        (if x.state ≠ .held then s.refused cell tag (.engage b) .wrongState
         else if effLevel s = .stop ∨ effLevel s = .cut then s.refused cell tag (.engage b) .tripped
         else if s.ct.nodeState ≠ .online then s.refused cell tag (.engage b) .wrongState
         else { s.taken cell tag (.engage b) with
          gu := { s.gu with
            sections := s.gu.sections.set i
              { x with state := .engaging, mark := true, engageCell := some cell } } })
       ∧ (x.state = .unset →
          exec (.disengage cell tag b) s = .next (s.refused cell tag (.disengage b) .wrongState))
       ∧ (x.state = .held → exec (.disengage cell tag b) s = .next (s.answer cell tag (.disengage b) (resultOk [])))
       ∧ (x.state = .jogging → exec (.disengage cell tag b) s = .next { s.taken cell tag (.disengage b) with
          gu := { s.gu with sections := s.gu.sections.set i { y with jogDemand := 0 } } })
       ∧ (x.state = .releasing → exec (.disengage cell tag b) s = .next { s.taken cell tag (.disengage b) with
          gu := { s.gu with sections := s.gu.sections.set i y } })
       ∧ (x.state = .engaged → exec (.disengage cell tag b) s = .next { s.taken cell tag (.disengage b) with
          gu := { s.gu with
            channels := channels
            sections := s.gu.sections.set i
              { y with state := .releasing, u := x.q, q := 0, mark := false, engageCell := none } } })
       ∧ (x.state = .engaging → ∃ t, exec (.disengage cell tag b) s = .next t
          ∧ t.gu = { s.gu with
              channels := channels
              sections := s.gu.sections.set i
                { y with state := .releasing, u := x.q, q := 0, mark := false, engageCell := none } }
          ∧ (∀ e r, x.engageCell = some e → e ≠ cell → s.wc.records[e] = some r → ∃ r', t.wc.records[e] = some r'
              ∧ r'.result = some { code := .cancelled, clamped := false, data := [] })
          ∧ (x.engageCell ≠ some cell → t.wc.records[cell] = some { cmd := .disengage b, tag := tag })
          ∧ t = { s with gu := t.gu, wc := t.wc }))

/-- R28, R29, R39: JOG and TRIM. That JOG refuses a section out of range before all else is the model's choice (log entry
18). -/
def Obligations.JogAndTrim : Prop :=
  ∀ (cell : Fin 16) (tag : Half) (s : State), s.wc.records[cell] = none →
    (∀ p : JogP,
      (p.sect.toNat = 0 ∨ 4 < p.sect.toNat → exec (.jog cell tag p) s = .next (s.refused cell tag (.jog p) .badParam))
      ∧ ∀ i : Fin 4, p.sect.toNat = i.val + 1 → exec (.jog cell tag p) s = .next
        (let x := s.gu.sections[i]
         let d : Int := max (-(x.jogLimit : Int)) (min (x.jogLimit : Int) p.demand.toInt)
         if x.state ≠ .held ∧ x.state ≠ .jogging then s.refused cell tag (.jog p) .wrongState
         else if x.disengageCells ≠ [] then s.refused cell tag (.jog p) .busy
         else if effLevel s = .stop ∨ effLevel s = .cut then s.refused cell tag (.jog p) .tripped
         else
          { s.answer cell tag (.jog p) ⟨.ok, decide (d ≠ p.demand.toInt), []⟩ with
          gu := { s.gu with
            sections := s.gu.sections.set i
              { x with jogDemand := d, state := if x.state = .held ∧ d = 0 then .held else .jogging } } }))
    ∧ ∀ p : TrimP,
      (1 < p.relative.toNat ∨ 1 < p.target.toNat ∨ (p.target = 0 ∧ (p.number.toNat = 0 ∨ 4 < p.number.toNat))
          ∨ (p.target = 1 ∧ 11 < p.number.toNat) →
        exec (.trim cell tag p) s = .next (s.refused cell tag (.trim p) .badParam))
      ∧ (∀ i : Fin 4, p.relative.toNat ≤ 1 → p.target = 0 → p.number.toNat = i.val + 1 →
        exec (.trim cell tag p) s = .next
        (let x := s.gu.sections[i]
         let t : Int := if p.relative = 1 then (BitVec.ofInt 32 (x.offT + p.value.toInt)).toInt else p.value.toInt
         if x.state = .unset then s.refused cell tag (.trim p) .wrongState
         else { s.answer cell tag (.trim p) (resultOk (leSigned 4 t ++ leSigned 4 x.offA)) with
          gu := { s.gu with sections := s.gu.sections.set i { x with offT := t } } }))
      ∧ ∀ i : Fin 12, p.relative.toNat ≤ 1 → p.target = 1 → p.number.toNat = i.val →
        exec (.trim cell tag p) s = .next
        (let c := s.gu.channels[i]
         let t : Int := if p.relative = 1 then (BitVec.ofInt 32 (c.offT + p.value.toInt)).toInt else p.value.toInt
         if c.state = .free then s.refused cell tag (.trim p) .wrongState
         else { s.answer cell tag (.trim p) (resultOk (leSigned 4 t ++ leSigned 4 c.offA)) with
          gu := { s.gu with channels := s.gu.channels.set i { c with offT := t } } })

/-- R77, R83, R86, R88: FORGET_NODE, with the NODE_MISSING condition that goes with the address, and RING_HEAL. -/
def Obligations.RingCommands : Prop :=
  ∀ (cell : Fin 16) (tag : Half) (s : State), s.wc.records[cell] = none →
    (∀ x : Byte,
      (s.straps.master = false → exec (.forgetNode cell tag x) s = .next (s.refused cell tag (.forgetNode x) .notMaster))
      ∧ (s.straps.master = true → 31 < x.toNat →
          exec (.forgetNode cell tag x) s = .next (s.refused cell tag (.forgetNode x) .badParam))
      ∧ ∀ a : NodeAddr, s.straps.master = true → x.toNat = a.val →
        (s.ag.lineState ≠ .standstill → s.ag.lineState ≠ .halted →
          exec (.forgetNode cell tag x) s = .next (s.refused cell tag (.forgetNode x) .wrongState))
        ∧ (s.ag.lineState = .standstill ∨ s.ag.lineState = .halted →
          (s.ri.present[a] = none →
            exec (.forgetNode cell tag x) s = .next (s.refused cell tag (.forgetNode x) .noSuch))
          ∧ (s.ri.present[a] ≠ none → ∃ t, exec (.forgetNode cell tag x) s = .next t
            ∧ t.ri = { s.ri with present := s.ri.present.set a none } ∧ findCond t .nodeMissing a.val = none
            ∧ (findCond s .nodeMissing a.val = none → t.tc = s.tc)
            ∧ (findCond s .nodeMissing a.val ≠ none → ConditionGone s t .nodeMissing a.val)
            ∧ t.wc.records = s.answeredRecords cell tag (.forgetNode x) (resultOk [])
            ∧ t = { s with ri := t.ri, tc := t.tc, wc := t.wc })))
    ∧ exec (.ringHeal cell tag) s = .next
      (if s.straps.master = false then s.refused cell tag .ringHeal .notMaster
       else if s.ag.lineState ≠ .standstill ∧ s.ag.lineState ≠ .halted then s.refused cell tag .ringHeal .wrongState
       else if s.ri.heal ≠ none then s.refused cell tag .ringHeal .busy
       else { s.taken cell tag .ringHeal with ri := { s.ri with heal := some { cell := cell, returns := 0 }, healRun := 0 } })

/-- R41, R42, R48, R86, R87, R88, R89, R93, R94, R105, R106, R107, R183, R184: RAISE_TRIP, RELEASE_TRIP and CLEAR_TRIP, with
the entry that each leaves or cannot make, the burst it queues, what the window shows of the table, and what a level that rises
to STOP or CUT does: at CUT a pending ENGAGE ends TRIPPED, a pending DISENGAGE DONE. That one updated entry moves the version by
one is the model's choice (log entry 87). -/
def Obligations.TripCommands : Prop :=
  ∀ (cell : Fin 16) (tag : Half) (s : State), s.wc.records[cell] = none →
    (∀ p : RaiseTripP,
      (15 < p.index.toNat ∨ p.cls = 0 ∨ 3 < p.cls.toNat →
        exec (.raiseTrip cell tag p) s = .next (s.refused cell tag (.raiseTrip p) .badParam))
      ∧ ∀ cls, p.index.toNat ≤ 15 → classOf p.cls = some cls → ∃ t, exec (.raiseTrip cell tag p) s = .next t
        ∧ ((∀ c, findCond s .command p.index.toNat = some c → c.cls = cls) →
            ConditionMet s t ⟨.command, p.index.toNat, cls⟩)
        ∧ (∀ c, findCond s .command p.index.toNat = some c → c.cls ≠ cls →
            ConditionReclassed s t .command p.index.toNat cls)
        ∧ (∃ r, t.wc.records[cell] = some r ∧ r.cmd = .raiseTrip p ∧ r.tag = tag
            ∧ r.result = some (resultOk (leBytes 4 (if s.ct.nodeState = .config then 0
                else ((findEntry t (ownKey s .command p.index.toNat)).map (·.count)).getD 0))))
        ∧ (TripTableKept s → t.tc.replacements = s.tc.replacements → TableShown s t)
        ∧ LevelRises none s t ∧ TelegramSpoiled s t
        ∧ cls.level.code ≤ (effLevel t).code
        ∧ t = { s with gu := t.gu, dlc := t.dlc, tc := t.tc, wc := t.wc })
    ∧ (∀ x : Byte,
      (15 < x.toNat → exec (.releaseTrip cell tag x) s = .next (s.refused cell tag (.releaseTrip x) .badParam))
      ∧ (x.toNat ≤ 15 → findCond s .command x.toNat = none →
          exec (.releaseTrip cell tag x) s = .next (s.refused cell tag (.releaseTrip x) .noSuch))
      ∧ (x.toNat ≤ 15 → findCond s .command x.toNat ≠ none → ∃ t, exec (.releaseTrip cell tag x) s = .next t
        ∧ findCond t .command x.toNat = none ∧ ConditionGone s t .command x.toNat
        ∧ (TripTableKept s → TableShown s t)
        ∧ t.wc.records = s.answeredRecords cell tag (.releaseTrip x) (resultOk [])
        ∧ t = { s with tc := t.tc, wc := t.wc }))
    ∧ ∀ p : ClearTripP,
      ((31 < p.source.toNat ∨ tripKindOf p.kind = none ∨ (∀ k, tripKindOf p.kind = some k → k.indices ≤ p.index.toNat)) →
        exec (.clearTrip cell tag p) s = .next (s.refused cell tag (.clearTrip p) .badParam))
      ∧ ∀ (a : NodeAddr) k, p.source.toNat = a.val → tripKindOf p.kind = some k → p.index.toNat < k.indices →
        (a ≠ s.straps.address ∨ findEntry s ⟨a, k, p.index.toNat⟩ = none →
          exec (.clearTrip cell tag p) s = .next (s.refused cell tag (.clearTrip p) .noSuch))
        ∧ ∀ e, a = s.straps.address → findEntry s ⟨a, k, p.index.toNat⟩ = some e →
          (e.latched = false →
            exec (.clearTrip cell tag p) s = .next (s.refused cell tag (.clearTrip p) .stillPresent))
          ∧ (e.latched = true → ∃ t, exec (.clearTrip cell tag p) s = .next t
            ∧ (∀ e' ∈ t.tc.table, e'.key = ⟨a, k, p.index.toNat⟩ → e'.latched = false)
            ∧ t.wc.attn.getLsbD 1 = true ∧ (TripTableKept s → findCond s k p.index.toNat = none → unstored s = [] → TableShown s t)
            ∧ (findCond s k p.index.toNat = none → findEntry t ⟨a, k, p.index.toNat⟩ = none
                ∧ (∀ k', k' ≠ ⟨a, k, p.index.toNat⟩ → (findEntry s k').isSome → findEntry t k' = findEntry s k')
                ∧ (unstored s = [] → t.tc.table = s.tc.table.filter fun e' => decide (e'.key ≠ ⟨a, k, p.index.toNat⟩))
                ∧ (TripTableKept s → ∀ c rest, unstored s = c :: rest → t.tc.table =
                    (s.tc.table.filter fun e' => decide (e'.key ≠ ⟨a, k, p.index.toNat⟩)) ++ [newOwnEntry s c]))
            ∧ (s.ct.nodeState ≠ .config →
                (∃ q ∈ t.tc.queue, q = { key := e.key, cls := e.cls, state := .cleared, refresh := false
                                         cycle := s.ct.n, pos := e.firstPos, count := 0 })
                ∨ (findCond s k p.index.toNat).isSome
                ∨ (16 ≤ s.tc.queue.length ∧ (∀ q ∈ s.tc.queue, q.key ≠ e.key) ∧ t.tc.queue = s.tc.queue))
            ∧ t.tc.conds = s.tc.conds
            ∧ t.wc.records = s.answeredRecords cell tag (.clearTrip p) (resultOk [])
            ∧ t = { s with tc := t.tc, wc := t.wc })

/-- R41, R42, R48, R86, R88, R90, R92: SET_TRIP_INPUT, with the condition and the own entry of a TRIPPING input that is
disabled or whose class changes. That a disable leaves the settings untested is the model's choice (log entry 18). -/
def Obligations.SetTripInputActs : Prop :=
  ∀ (cell : Fin 16) (tag : Half) (p : SetTripInputP) (s : State), s.wc.records[cell] = none →
    (7 < p.input.toNat ∨ 1 < p.disable.toNat
        ∨ (p.disable = 0 ∧ (p.cls = 0 ∨ 3 < p.cls.toNat ∨ 1 < p.tripsLow.toNat ∨ 15 < p.debounce.toNat)) →
      exec (.setTripInput cell tag p) s = .next (s.refused cell tag (.setTripInput p) .badParam))
    ∧ ∀ i : Fin 8, p.input.toNat = i.val →
      (let x := s.tc.inputs[i]
       (p.disable = 1 → ∃ t, exec (.setTripInput cell tag p) s = .next t
          ∧ t.tc.inputs = s.tc.inputs.set i { x with enabled := false, run := 0, tripping := false }
          ∧ (x.enabled = true → x.tripping = true → ConditionGone s t .input i.val)
          ∧ (x.enabled = false ∨ x.tripping = false → t.tc = { s.tc with inputs := t.tc.inputs })
          ∧ t.wc.records = s.answeredRecords cell tag (.setTripInput p) (resultOk [])
          ∧ t = { s with tc := t.tc, wc := t.wc })
       ∧ ∀ cls, p.disable = 0 → classOf p.cls = some cls → p.tripsLow.toNat ≤ 1 → p.debounce.toNat ≤ 15 →
          ∃ t, exec (.setTripInput cell tag p) s = .next t
          ∧ t.tc.inputs = s.tc.inputs.set i { x with
              enabled := true, cls := cls, tripsLow := decide (p.tripsLow = 1), debounce := p.debounce.toNat, run := 0
              tripping := x.enabled && x.tripping }
          ∧ (x.enabled = true → x.tripping = true → x.cls ≠ cls →
              ConditionReclassed s t .input i.val cls ∧ LevelRises none s t ∧ TelegramSpoiled s t)
          ∧ t.wc.records[cell] = some { cmd := .setTripInput p, tag := tag, result := some (resultOk [])
                                        phase := if windowOn s then .fields else .kept }
          ∧ (x.enabled = false ∨ x.tripping = false ∨ x.cls = cls →
              t = { s.answer cell tag (.setTripInput p) (resultOk []) with tc := { s.tc with inputs := t.tc.inputs } })
          ∧ t = { s with gu := t.gu, dlc := t.dlc, tc := t.tc, wc := t.wc })

/-- R112, R113, R127: the commands of a stream. That SET_STREAM tests its ranges before BUSY (log entry 18), that STOP_STREAM
flags a frame whose target is awaited TRUNCATED (log entry 72), and that the row in reception is then missing (log entry 73),
are the model's choices. -/
def Obligations.StreamCommands : Prop :=
  ∀ (cell : Fin 16) (tag : Half) (s : State), s.wc.records[cell] = none →
    (∀ p : SetStreamP,
      (1 < p.stream.toNat ∨ p.rowPixels.toNat < 64 ∨ 4096 < p.rowPixels.toNat ∨ p.rowPixels.toNat % 8 ≠ 0
          ∨ p.pitch.toNat < 16 ∨ 1048576 ≤ p.phase.toNat ∨ p.decimation = 0 ∨ 2 < p.decimation.toNat ∨ p.minPeriod = 0
          ∨ p.rowTimeout = 0 ∨ 1000 < p.rowTimeout.toNat ∨ p.webRows = 0 ∨ 4096 < p.webRows.toNat ∨ 3 < p.webClass.toNat →
        exec (.setStream cell tag p) s = .next (s.refused cell tag (.setStream p) .badParam))
      ∧ ∀ u : Fin 2, p.stream.toNat = u.val → 64 ≤ p.rowPixels.toNat → p.rowPixels.toNat ≤ 4096 → p.rowPixels.toNat % 8 = 0 →
        16 ≤ p.pitch.toNat → p.phase.toNat < 1048576 → p.decimation = 1 ∨ p.decimation = 2 → p.minPeriod ≠ 0 →
        1 ≤ p.rowTimeout.toNat → p.rowTimeout.toNat ≤ 1000 → 1 ≤ p.webRows.toNat → p.webRows.toNat ≤ 4096 →
        p.webClass.toNat ≤ 3 → exec (.setStream cell tag p) s = .next
        (if s.cu[u].state ≠ .idle then s.refused cell tag (.setStream p) .busy
         else
          { s.answer cell tag (.setStream p) (resultOk []) with
            cu := s.cu.set u { s.cu[u] with
              configured := true, dark := 0, bright := 0
              set := { rowPixels := p.rowPixels.toNat, pitch := p.pitch.toNat, phase := p.phase.toNat
                       decimation := p.decimation.toNat, minPeriod := p.minPeriod.toNat, rowTimeout := p.rowTimeout.toNat
                       threshold := p.threshold.toNat, webRows := p.webRows.toNat, webClass := classOf p.webClass } } }))
    ∧ (∀ x : Byte, 1 < x.toNat →
        exec (.startStream cell tag x) s = .next (s.refused cell tag (.startStream x) .badParam)
        ∧ exec (.stopStream cell tag x) s = .next (s.refused cell tag (.stopStream x) .badParam))
    ∧ ∀ (x : Byte) (u : Fin 2), x.toNat = u.val →
      exec (.startStream cell tag x) s = .next
        (if s.cu[u].state ≠ .idle ∨ s.cu[u].configured = false ∨ s.pm.pools[capturePool u].configured = false then
          s.refused cell tag (.startStream x) .wrongState
         else
          { s.answer cell tag (.startStream x) (resultOk []) with
            cu := s.cu.set u { s.cu[u] with
              state := .armed, nextRow := none, lastTrigger := none, broken := false, dark := 0, bright := 0 } })
      ∧ (s.cu[u].state = .idle → exec (.stopStream cell tag x) s = .next (s.refused cell tag (.stopStream x) .wrongState))
      ∧ (s.cu[u].state ≠ .idle → ∃ t, exec (.stopStream cell tag x) s = .next t
          ∧ t.cu[u].state = .idle ∧ t.cu[u].nextRow = none ∧ t.cu[u].lastTrigger = none ∧ t.cu[u].plan = []
          ∧ t.cu[u].outstanding = [] ∧ t.cu[u].row = none ∧ t.cu[u].broken = false ∧ t.cu[u].dark = 0 ∧ t.cu[u].bright = 0
          ∧ t.cu[u].fifo = s.cu[u].fifo ∧ t.cu[u].set = s.cu[u].set ∧ findCond t .web u.val = none
          ∧ (∀ f ∈ t.cu[u].frames, f.rows ≤ f.resolved)
          ∧ (∀ l, s.cu[u].frames.getLast? = some l → l.target ≠ .skip →
              (∀ g ∈ t.cu[u].frames, g.id = l.id → g.flags.truncated = true)
              ∧ { l with
                  resolved := max l.rows l.resolved
                  flags := { l.flags with
                    truncated := true, gapped := l.flags.gapped || decide (l.resolved < l.rows)
                    incomplete := l.flags.incomplete || decide (l.resolved < l.rows) } } ∈ t.cu[u].frames)
          ∧ t.cu[u].flight = s.cu[u].flight ∧ t.cu[u].trigHigh = false
          ∧ t.wc.records = s.answeredRecords cell tag (.stopStream x) (resultOk [])
          ∧ t = { s with cu := s.cu.set u t.cu[u], tc := t.tc, wc := t.wc })

/-- R132, R133, R155, R159: SET_POOL and SET_RECEIVE. That an unbind leaves its other parameters untested (log entry 18), and
that it closes a SKIPPING assembly too (log entry 64), are the model's choices. -/
def Obligations.PoolAndReceiveCommands : Prop :=
  ∀ (cell : Fin 16) (tag : Half) (s : State), s.wc.records[cell] = none →
    (∀ (p : SetPoolP) (ds : List DescRead),
      (5 < p.pool.toNat ∨ p.count.toNat < 2 ∨ 8 < p.count.toNat ∨ 1 < p.notify.toNat →
        exec (.setPool cell tag p ds) s = .next (s.refused cell tag (.setPool p ds) .badParam))
      ∧ ∀ i : Fin 6, p.pool.toNat = i.val → 2 ≤ p.count.toNat → p.count.toNat ≤ 8 → p.notify.toNat ≤ 1 →
        (poolInUse s i = true → exec (.setPool cell tag p ds) s = .next (s.refused cell tag (.setPool p ds) .busy))
        ∧ (poolInUse s i = false →
          ((ds.length < p.count.toNat ∨ ∃ d ∈ ds.take p.count.toNat,
              d.address.toNat % 64 ≠ 0 ∨ d.capacity = 0 ∨ d.stride = 0) →
            exec (.setPool cell tag p ds) s = .next (s.refused cell tag (.setPool p ds) .badParam))
          ∧ (p.count.toNat ≤ ds.length → (∀ d ∈ ds.take p.count.toNat,
              d.address.toNat % 64 = 0 ∧ d.capacity ≠ 0 ∧ d.stride ≠ 0) → ∃ t, exec (.setPool cell tag p ds) s = .next t
            ∧ t.pm.pools = s.pm.pools.set i { s.pm.pools[i] with
                configured := true, notify := decide (p.notify = 1), completed := 0, skipped := 0
                buffers := (ds.take p.count.toNat).map fun d =>
                  { address := d.address, capacity := d.capacity.toNat, stride := d.stride.toNat } }
            ∧ t.wc.records = s.answeredRecords cell tag (.setPool p ds)
                (resultOk (byte p.count.toNat :: le32 s.pm.pools[i].nextSeq))
            ∧ (windowOn s = false → t.pm.work = s.pm.work)
            ∧ (windowOn s = true → t.pm.work = s.pm.work ++ (List.range p.count.toNat).flatMap fun b : Nat =>
                [({ pool := i, item := .change b (((t.pm.pools[i].buffers[b]?).map descriptorFields).getD []) .free } : PoolWrite),
                 { pool := i, item := .header (poolHeaderBytes t.pm.pools[i]) }])
            ∧ t = { s with pm := t.pm, wc := t.wc })))
    ∧ (∀ p : SetReceiveP, p.pool.toNat < 2 ∨ 5 < p.pool.toNat ∨ 1 < p.bind.toNat →
      exec (.setReceive cell tag p) s = .next (s.refused cell tag (.setReceive p) .badParam))
    ∧ ∀ (p : SetReceiveP) (k : Fin 4), p.pool.toNat = k.val + 2 →
      (p.bind = 0 → ∃ t, exec (.setReceive cell tag p) s = .next t ∧ t.ve.bindings[k].source = none
        ∧ (s.ve.bindings[k].source ≠ none → t.ve.bindings[k].asm = .closed)
        ∧ (s.ve.bindings[k].source ≠ none → s.ve.bindings[k].asm = .openA → ∀ f, s.ve.bindings[k].frames.getLast? = some f →
            t.ve.bindings[k].frames = s.ve.bindings[k].frames.dropLast
              ++ [{ f with closed := true, flags := { f.flags with incomplete := true } }])
        ∧ (s.ve.bindings[k].source = none ∨ s.ve.bindings[k].asm ≠ .openA →
            t.ve.bindings[k].frames = s.ve.bindings[k].frames)
        ∧ t = { s.answer cell tag (.setReceive p) (resultOk []) with
                ve := { s.ve with bindings := s.ve.bindings.set k t.ve.bindings[k] } })
      ∧ (p.bind = 1 → 31 < p.source.toNat ∨ 3 < p.view.toNat ∨ p.timeout = 0 ∨ 4096 < p.timeout.toNat →
        exec (.setReceive cell tag p) s = .next (s.refused cell tag (.setReceive p) .badParam))
      ∧ ∀ n : NodeAddr, p.bind = 1 → p.source.toNat = n.val → p.view.toNat ≤ 3 → 1 ≤ p.timeout.toNat →
        p.timeout.toNat ≤ 4096 → exec (.setReceive cell tag p) s = .next
        (if s.pm.pools[recvPool k].configured = false then s.refused cell tag (.setReceive p) .wrongState
         else if poolInUse s (recvPool k) = true
            ∨ (∃ c : Fin 4, c ≠ k ∧ s.ve.bindings[c].source = some (n, p.view.toNat)) then
          s.refused cell tag (.setReceive p) .busy
         else
          { s.answer cell tag (.setReceive p) (resultOk []) with
            ve := { s.ve with
              bindings := s.ve.bindings.set k { s.ve.bindings[k] with
                source := some (n, p.view.toNat), timeout := p.timeout.toNat, last := none, asm := .closed } } })

/-- R141, R147, R148, R152, R153, R154: the commands of the outgoing views. That SET_VIEW tests its ranges before BUSY is the
model's choice (log entry 18). -/
def Obligations.ViewCommands : Prop :=
  ∀ (cell : Fin 16) (tag : Half) (s : State), s.wc.records[cell] = none →
    (∀ (p : SetViewP) (v : Fin 4), p.view.toNat = v.val → p.pool.toNat ≤ 1 → p.mean.toNat ≤ 1 →
      p.dest.toNat < 32 ∨ p.dest = 63 → p.dx = 1 ∨ p.dx = 2 ∨ p.dx = 4 ∨ p.dx = 8 →
      p.dy = 1 ∨ p.dy = 2 ∨ p.dy = 4 ∨ p.dy = 8 → p.x0.toNat ≤ 4095 → 1 ≤ p.w.toNat → p.w.toNat ≤ 4096 → p.h ≠ 0 →
      p.segSize = 128 ∨ p.segSize = 256 ∨ p.segSize = 512 → exec (.setView cell tag p) s = .next
      (let W := p.w.toNat / p.dx.toNat
       let h := if 1048576 < W * (p.h.toNat / p.dy.toNat) then 1048576 / W * p.dy.toNat else p.h.toNat
       if s.ve.views[v].state ≠ .stopped then s.refused cell tag (.setView p) .busy
       else
        { s.answer cell tag (.setView p)
            ⟨.ok, decide (h ≠ p.h.toNat), leBytes 2 h ++ leBytes 4 W ++ leBytes 4 (h / p.dy.toNat)⟩ with
          ve := { s.ve with
            views := s.ve.views.set v { s.ve.views[v] with
              configured := true, last := none
              set := { pool := if p.pool = 0 then 0 else 1, dest := p.dest.toNat, x0 := p.x0.toNat, y0 := p.y0.toNat
                       w := p.w.toNat, h := h, dx := p.dx.toNat, dy := p.dy.toNat, mean := decide (p.mean = 1)
                       segSize := p.segSize.toNat } } } }))
    ∧ (∀ p : SetViewP, 3 < p.view.toNat ∨ 1 < p.pool.toNat ∨ 1 < p.mean.toNat ∨ (31 < p.dest.toNat ∧ p.dest ≠ 63)
        ∨ 4095 < p.x0.toNat ∨ p.w = 0 ∨ 4096 < p.w.toNat ∨ p.h = 0 ∨ (p.dx ≠ 1 ∧ p.dx ≠ 2 ∧ p.dx ≠ 4 ∧ p.dx ≠ 8)
        ∨ (p.dy ≠ 1 ∧ p.dy ≠ 2 ∧ p.dy ≠ 4 ∧ p.dy ≠ 8) ∨ (p.segSize ≠ 128 ∧ p.segSize ≠ 256 ∧ p.segSize ≠ 512) →
      exec (.setView cell tag p) s = .next (s.refused cell tag (.setView p) .badParam))
    ∧ (∀ x : Byte, 3 < x.toNat → exec (.startView cell tag x) s = .next (s.refused cell tag (.startView x) .badParam)
        ∧ exec (.stopView cell tag x) s = .next (s.refused cell tag (.stopView x) .badParam))
    ∧ (∀ (x : Byte) (v : Fin 4), x.toNat = v.val →
      exec (.startView cell tag x) s = .next
        (if s.ve.views[v].state ≠ .stopped ∨ s.ve.views[v].configured = false then
          s.refused cell tag (.startView x) .wrongState
         else
          { s.answer cell tag (.startView x) (resultOk []) with
            ve := { s.ve with views := s.ve.views.set v { s.ve.views[v] with state := .waiting } } })
      ∧ (s.ve.views[v].state = .stopped →
          exec (.stopView cell tag x) s = .next (s.refused cell tag (.stopView x) .wrongState))
      ∧ (s.ve.views[v].state = .waiting → exec (.stopView cell tag x) s = .next
          { s.answer cell tag (.stopView x) (resultOk []) with
            ve := { s.ve with views := s.ve.views.set v { s.ve.views[v] with state := .stopped } } })
      ∧ (s.ve.views[v].state = .sending → ∃ t, exec (.stopView cell tag x) s = .next t
          ∧ (t.ve.exhausted = true ↔ s.ve.exhausted = true
              ∨ ((firstReady t).bind fun w => readySegment t.ve.views[w]).any
                  (fun bs => decide (t.ve.budget < bs.length)) = true)
          ∧ t.ve = { s.ve with
              exhausted := t.ve.exhausted
              views := s.ve.views.set v { s.ve.views[v] with
                state := .stopped, current := none, prepared := none
                truncations := s.ve.views[v].truncations + 1 } }
          ∧ (∀ f y, s.ve.views[v].current = some f → bufferAt s (viewPool s.ve.views[v].set) f.buffer = some y →
              ∃ z, bufferAt t (viewPool s.ve.views[v].set) f.buffer = some z ∧ z = { y with readers := y.readers - 1 })
          ∧ t.wc.records = s.answeredRecords cell tag (.stopView x) (resultOk [])
          ∧ t = { s with ve := t.ve, pm := t.pm, wc := t.wc }))
    ∧ ∀ p : SetViewAllowanceP, exec (.setViewAllowance cell tag p) s = .next
        (if 16384 < p.allowance.toNat ∨ 100 < p.quiet.toNat then
          s.refused cell tag (.setViewAllowance p) .badParam
         else
          { s.answer cell tag (.setViewAllowance p) (resultOk []) with
            ve := { s.ve with pendingAllowance := some (p.allowance.toNat, p.quiet.toNat) } })

/-- R162, R165, R172: SET_SCREEN, SET_PANE and SET_BACKLIGHT. That SET_SCREEN tests its ranges before BUSY (log entry 18), and
the duty that SET_BACKLIGHT answers (log entry 28), are the model's choices. -/
def Obligations.ScreenSetupCommands : Prop :=
  ∀ (cell : Fin 16) (tag : Half) (s : State), s.wc.records[cell] = none →
    (∀ p : SetScreenP, exec (.setScreen cell tag p) s = .next
      (if p.width.toNat < 320 ∨ 1280 < p.width.toNat ∨ p.height.toNat < 240 ∨ 1024 < p.height.toNat ∨ p.clock.toNat < 25
          ∨ 110 < p.clock.toNat ∨ p.hFront = 0 ∨ p.hSync = 0 ∨ p.hBack = 0 ∨ p.vFront = 0 ∨ p.vSync = 0 ∨ p.vBack = 0 then
        s.refused cell tag (.setScreen p) .badParam
       else if s.sc.enabled then s.refused cell tag (.setScreen p) .busy
       else
        { s.answer cell tag (.setScreen p) (resultOk []) with
          sc := { s.sc with
            width := p.width.toNat, height := p.height.toNat, clock := p.clock.toNat, hFront := p.hFront.toNat
            hSync := p.hSync.toNat, hBack := p.hBack.toNat, vFront := p.vFront.toNat, vSync := p.vSync.toNat
            vBack := p.vBack.toNat, fill := p.red ++ p.green ++ p.blue } }))
    ∧ (∀ p : SetPaneP,
      (3 < p.pane.toNat ∨ 1 < p.enable.toNat ∨ 1 < p.host.toNat ∨ 5 < p.pool.toNat ∨ 1 < p.incomplete.toNat
          ∨ 1 < p.tint.toNat ∨ (p.zoom ≠ 1 ∧ p.zoom ≠ 2 ∧ p.zoom ≠ 4) ∨ p.hostStride = 0 ∨ p.hostWidth = 0
          ∨ 4096 < p.hostWidth.toNat ∨ p.hostRows = 0 ∨ 4096 < p.hostRows.toNat ∨ 1279 < p.x.toNat ∨ 1023 < p.y.toNat
          ∨ p.w = 0 ∨ 1280 < p.w.toNat ∨ p.h = 0 ∨ 1024 < p.h.toNat →
        exec (.setPane cell tag p) s = .next (s.refused cell tag (.setPane p) .badParam))
      ∧ ∀ (i : Fin 4) (pool : Fin 6), p.pane.toNat = i.val → p.pool.toNat = pool.val → p.enable.toNat ≤ 1 →
        p.host.toNat ≤ 1 → p.incomplete.toNat ≤ 1 → p.tint.toNat ≤ 1 → p.zoom = 1 ∨ p.zoom = 2 ∨ p.zoom = 4 →
        p.hostStride ≠ 0 → 1 ≤ p.hostWidth.toNat → p.hostWidth.toNat ≤ 4096 → 1 ≤ p.hostRows.toNat →
        p.hostRows.toNat ≤ 4096 → p.x.toNat ≤ 1279 → p.y.toNat ≤ 1023 → 1 ≤ p.w.toNat → p.w.toNat ≤ 1280 →
        1 ≤ p.h.toNat → p.h.toNat ≤ 1024 → exec (.setPane cell tag p) s = .next
        { s.answer cell tag (.setPane p)
            ⟨.ok, decide (s.sc.width < p.x.toNat + p.w.toNat ∨ s.sc.height < p.y.toNat + p.h.toNat), []⟩ with
          sc := { s.sc with
            panes := s.sc.panes.set i { s.sc.panes[i] with
              waiting := some
                { enable := decide (p.enable = 1), host := decide (p.host = 1), pool := pool
                  incomplete := decide (p.incomplete = 1), bufA := p.bufA, bufB := p.bufB
                  hostStride := p.hostStride.toNat, hostWidth := p.hostWidth.toNat, hostRows := p.hostRows.toNat
                  x := p.x.toNat, y := p.y.toNat, w := p.w.toNat, h := p.h.toNat, sx := p.sx.toNat, sy := p.sy.toNat
                  zoom := p.zoom.toNat, tint := decide (p.tint = 1) } } } })
    ∧ ∀ p : SetBacklightP,
      (1 < p.square.toNat →
        exec (.setBacklight cell tag p) s = .next (s.refused cell tag (.setBacklight p) .badParam))
      ∧ (p.square.toNat ≤ 1 → exec (.setBacklight cell tag p) s = .next
        (let c := if s.sc.alarm then max p.code.toNat p.alarmMin.toNat else p.code.toNat
         let d := if s.sc.enabled then (if p.square = 1 then c * c * 4095 / 65025 else c * 4095 / 255) else 0
         { s.answer cell tag (.setBacklight p) (resultOk (leBytes 2 d)) with
           sc := { s.sc with code := p.code.toNat, square := decide (p.square = 1), alarmMin := p.alarmMin.toNat
                             dutyFormed := d } }))

/-- R141, R163, R166, R169, R170: SCREEN_ENABLE, FLIP_PANE and LOAD_PALETTE. The order in which flips and loads end as the
screen goes off (log entry 78), and that a load is TAKEN for BUSY until its cell completes (log entry 99), are the model's
choices. -/
def Obligations.ScreenCommands : Prop :=
  ∀ (cell : Fin 16) (tag : Half) (x : Byte) (s : State), s.wc.records[cell] = none →
    (1 < x.toNat → exec (.screenEnable cell tag x) s = .next (s.refused cell tag (.screenEnable x) .badParam))
    ∧ (x.toNat ≤ 1 → (x = 1 ↔ s.sc.enabled = true) →
        exec (.screenEnable cell tag x) s = .next (s.answer cell tag (.screenEnable x) (resultOk [])))
    ∧ (x = 1 → s.sc.enabled = false → ∃ t, exec (.screenEnable cell tag x) s = .next t
        ∧ t.sc.enabled = true ∧ t.sc.position = some (0, 0) ∧ t.sc.running = 0xFFFF ∧ t.sc.latched = false
        ∧ t.sc.frames = s.sc.frames ∧ t.sc.width = s.sc.width ∧ t.sc.height = s.sc.height
        ∧ t.sc.alarm = decide (effLevel s = .stop ∨ effLevel s = .cut)
        ∧ (∀ i : Fin 4, t.sc.panes[i].inForce = s.sc.panes[i].waiting.getD s.sc.panes[i].inForce
            ∧ t.sc.panes[i].waiting = none ∧ t.sc.panes[i].flip = none)
        ∧ (∀ i : Fin 2, t.sc.palettes[i] =
            if s.sc.loads[i].state = .complete then s.sc.loads[i].store else s.sc.palettes[i])
        ∧ (∃ r, t.wc.records[cell] = some r ∧ r.result = some (resultOk (leBytes 4
            ((s.sc.width + s.sc.hFront + s.sc.hSync + s.sc.hBack) * (s.sc.height + s.sc.vFront + s.sc.vSync + s.sc.vBack)
              / s.sc.clock))))
        ∧ t = { s with pm := t.pm, sc := t.sc, wc := t.wc })
    ∧ (x = 0 → s.sc.enabled = true → ∃ t, exec (.screenEnable cell tag x) s = .next t
        ∧ t.sc.enabled = false ∧ t.sc.position = none ∧ t.sc.duty = 0 ∧ t.sc.blpwm = false ∧ t.sc.hs = false
        ∧ t.sc.vs = false ∧ t.sc.de = false ∧ t.sc.rgb = 0 ∧ t.sc.fifo = [] ∧ t.sc.frames = s.sc.frames
        ∧ t.sc.signature = s.sc.signature ∧ t.sc.pclk = false ∧ t.sc.alarm = false ∧ t.sc.dutyFormed = 0
        ∧ (∀ r ∈ t.sc.reads, r = []) ∧ t.sc.reads.length = s.sc.reads.length
        ∧ (∀ (p : Fin 6) (b : Nat) (y : Buffer), s.pm.pools[p].buffers[b]? = some y →
            (let holding := ((List.finRange 4).filter fun i : Fin 4 => decide (s.sc.panes[i].held = some (p, b))).length
             holding ≤ y.readers → t.pm.pools[p].buffers[b]? = some { y with readers := y.readers - holding }))
        ∧ (∀ i : Fin 4, t.sc.panes[i].shownB = (s.sc.panes[i].shownB != s.sc.panes[i].flip.isSome)
            ∧ ∀ e, s.sc.panes[i].flip = some e → (∀ j : Fin 4, j ≠ i → s.sc.panes[j].flip ≠ some e) →
              (∀ k : Fin 2, s.sc.loads[k].cell ≠ some e) → EndsWith s t e (resultOk [if t.sc.panes[i].shownB then 1 else 0]))
        ∧ (∀ i : Fin 2,
            (s.sc.loads[i].state ≠ .complete → t.sc.palettes[i] = s.sc.palettes[i] ∧ t.sc.loads[i] = s.sc.loads[i])
            ∧ (s.sc.loads[i].state = .complete → t.sc.palettes[i] = s.sc.loads[i].store ∧ t.sc.loads[i].cell = none
                ∧ t.sc.loads[i].state = .idle
                ∧ ∀ e, s.sc.loads[i].cell = some e → (∀ j : Fin 4, s.sc.panes[j].flip ≠ some e) →
                  (∀ k : Fin 2, k ≠ i → s.sc.loads[k].cell ≠ some e) → EndsWith s t e (resultOk [])))
        ∧ (∀ i : Fin 4, t.sc.panes[i].held = none ∧ t.sc.panes[i].source = none ∧ t.sc.panes[i].flip = none
            ∧ t.sc.panes[i].inForce = s.sc.panes[i].inForce)
        ∧ (∃ r, t.wc.records[cell] = some r ∧ r.result = some (resultOk []))
        ∧ t = { s with pm := t.pm, sc := t.sc, wc := t.wc })
    ∧ (3 < x.toNat → exec (.flipPane cell tag x) s = .next (s.refused cell tag (.flipPane x) .badParam))
    ∧ (∀ i : Fin 4, x.toNat = i.val → exec (.flipPane cell tag x) s = .next
        (let p := s.sc.panes[i]
         if (p.waiting.getD p.inForce).host = false then s.refused cell tag (.flipPane x) .wrongState
         else if p.flip.isSome then s.refused cell tag (.flipPane x) .busy
         else if s.sc.enabled then
          { s.taken cell tag (.flipPane x) with
            sc := { s.sc with panes := s.sc.panes.set i { p with flip := some cell } } }
         else
          { s.answer cell tag (.flipPane x) (resultOk [if p.shownB then 0 else 1]) with
            sc := { s.sc with panes := s.sc.panes.set i { p with shownB := !p.shownB } } }))
    ∧ ∀ a : Addr,
      (1 < x.toNat → exec (.loadPalette cell tag ⟨x, a⟩) s = .next (s.refused cell tag (.loadPalette ⟨x, a⟩) .badParam))
      ∧ ∀ i : Fin 2, x.toNat = i.val → exec (.loadPalette cell tag ⟨x, a⟩) s = .next
        (if s.sc.loads[i].cell.isSome then s.refused cell tag (.loadPalette ⟨x, a⟩) .busy
         else
          { s.taken cell tag (.loadPalette ⟨x, a⟩) with
            sc := { s.sc with
              loads := s.sc.loads.set i { s.sc.loads[i] with
                state := .reading, cell := some cell, address := a, issued := 0, busError := false } } })
end

