-- ==== Sys2Proof/Laws/State.lean ====
section
/-! SUPPORT. Of each named update of State: what the one field that it touches becomes, and that every other field stays. -/

namespace Sys2Proof.Machine

variable (s : State)

/-! ### passSlots -/

@[simp] theorem passSlots_straps : (passSlots s).straps = s.straps := rfl
@[simp] theorem passSlots_ct : (passSlots s).ct = s.ct := rfl
@[simp] theorem passSlots_ag : (passSlots s).ag = s.ag := rfl
@[simp] theorem passSlots_gu : (passSlots s).gu = s.gu := rfl
@[simp] theorem passSlots_dlc : (passSlots s).dlc = s.dlc := rfl
@[simp] theorem passSlots_tc : (passSlots s).tc = s.tc := rfl
@[simp] theorem passSlots_cu : (passSlots s).cu = s.cu := rfl
@[simp] theorem passSlots_pm : (passSlots s).pm = s.pm := rfl
@[simp] theorem passSlots_ve : (passSlots s).ve = s.ve := rfl
@[simp] theorem passSlots_sc : (passSlots s).sc = s.sc := rfl
@[simp] theorem passSlots_wc : (passSlots s).wc = s.wc := rfl
@[simp] theorem passSlots_mp : (passSlots s).mp = s.mp := rfl
@[simp] theorem passSlots_mem : (passSlots s).mem = s.mem := rfl
@[simp] theorem passSlots_pending : (passSlots s).pending = s.pending := rfl
@[simp] theorem passSlots_ri : (passSlots s).ri =
    { s.ri with beatIn := s.ri.beatIn.map (readSlot s), primaryTx := s.ri.primaryTx.map (writeSlot s) } := rfl

/-! ### advance -/

@[simp] theorem advance_straps (t : Time) : (advance t s).straps = s.straps := rfl
@[simp] theorem advance_ct (t : Time) :
    (advance t s).ct = { s.ct with localTime := if s.ct.localTime.toNat < t.toNat then t else s.ct.localTime } := rfl
@[simp] theorem advance_ag (t : Time) : (advance t s).ag = s.ag := rfl
@[simp] theorem advance_gu (t : Time) : (advance t s).gu = s.gu := rfl
@[simp] theorem advance_dlc (t : Time) : (advance t s).dlc = s.dlc := rfl
@[simp] theorem advance_ri_ports (t : Time) : (advance t s).ri.ports = s.ri.ports := rfl
@[simp] theorem advance_ri_mode (t : Time) : (advance t s).ri.mode = s.ri.mode := rfl
@[simp] theorem advance_ri_routedAt (t : Time) : (advance t s).ri.routedAt = s.ri.routedAt := rfl
@[simp] theorem advance_ri_delayed (t : Time) : (advance t s).ri.delayed = s.ri.delayed := rfl
@[simp] theorem advance_ri_store (t : Time) : (advance t s).ri.store = s.ri.store := rfl
@[simp] theorem advance_ri_linkTx (t : Time) : (advance t s).ri.linkTx = s.ri.linkTx := rfl
@[simp] theorem advance_ri_own (t : Time) : (advance t s).ri.own = s.ri.own := rfl
@[simp] theorem advance_ri_healMark (t : Time) : (advance t s).ri.healMark = s.ri.healMark := rfl
@[simp] theorem advance_ri_stopped (t : Time) : (advance t s).ri.stopped = s.ri.stopped := rfl
@[simp] theorem advance_ri_copyCycle (t : Time) : (advance t s).ri.copyCycle = s.ri.copyCycle := rfl
@[simp] theorem advance_ri_copy (t : Time) : (advance t s).ri.copy = s.ri.copy := rfl
@[simp] theorem advance_ri_present (t : Time) : (advance t s).ri.present = s.ri.present := rfl
@[simp] theorem advance_ri_healFlag (t : Time) : (advance t s).ri.healFlag = s.ri.healFlag := rfl
@[simp] theorem advance_ri_healRun (t : Time) : (advance t s).ri.healRun = s.ri.healRun := rfl
@[simp] theorem advance_ri_heal (t : Time) : (advance t s).ri.heal = s.ri.heal := rfl
@[simp] theorem advance_ri_hopRemovals (t : Time) : (advance t s).ri.hopRemovals = s.ri.hopRemovals := rfl
@[simp] theorem advance_ri_viewDiscards (t : Time) : (advance t s).ri.viewDiscards = s.ri.viewDiscards := rfl
@[simp] theorem advance_ri_storeDiscards (t : Time) : (advance t s).ri.storeDiscards = s.ri.storeDiscards := rfl
@[simp] theorem advance_ri_misrouted (t : Time) : (advance t s).ri.misrouted = s.ri.misrouted := rfl
@[simp] theorem advance_ri_repeated (t : Time) : (advance t s).ri.repeated = s.ri.repeated := rfl
@[simp] theorem advance_ri_ownSent (t : Time) : (advance t s).ri.ownSent = s.ri.ownSent := rfl
@[simp] theorem advance_tc (t : Time) : (advance t s).tc = s.tc := rfl
@[simp] theorem advance_cu (t : Time) : (advance t s).cu = s.cu := rfl
@[simp] theorem advance_pm (t : Time) : (advance t s).pm = s.pm := rfl
@[simp] theorem advance_ve (t : Time) : (advance t s).ve = s.ve := rfl
@[simp] theorem advance_sc (t : Time) : (advance t s).sc = s.sc := rfl
@[simp] theorem advance_wc (t : Time) : (advance t s).wc = s.wc := rfl
@[simp] theorem advance_mp (t : Time) : (advance t s).mp = s.mp := rfl
@[simp] theorem advance_mem (t : Time) : (advance t s).mem = s.mem := rfl
@[simp] theorem advance_pending (t : Time) : (advance t s).pending = s.pending := rfl

/-! ### store -/

@[simp] theorem store_straps (a : Addr) (bs : List Byte) : (store a bs s).straps = s.straps := rfl
@[simp] theorem store_ct (a : Addr) (bs : List Byte) : (store a bs s).ct = s.ct := rfl
@[simp] theorem store_ag (a : Addr) (bs : List Byte) : (store a bs s).ag = s.ag := rfl
@[simp] theorem store_gu (a : Addr) (bs : List Byte) : (store a bs s).gu = s.gu := rfl
@[simp] theorem store_dlc (a : Addr) (bs : List Byte) : (store a bs s).dlc = s.dlc := rfl
@[simp] theorem store_ri (a : Addr) (bs : List Byte) : (store a bs s).ri = s.ri := rfl
@[simp] theorem store_tc (a : Addr) (bs : List Byte) : (store a bs s).tc = s.tc := rfl
@[simp] theorem store_cu (a : Addr) (bs : List Byte) : (store a bs s).cu = s.cu := rfl
@[simp] theorem store_pm (a : Addr) (bs : List Byte) : (store a bs s).pm = s.pm := rfl
@[simp] theorem store_ve (a : Addr) (bs : List Byte) : (store a bs s).ve = s.ve := rfl
@[simp] theorem store_sc (a : Addr) (bs : List Byte) : (store a bs s).sc = s.sc := rfl
@[simp] theorem store_wc (a : Addr) (bs : List Byte) : (store a bs s).wc = s.wc := rfl
@[simp] theorem store_mp (a : Addr) (bs : List Byte) : (store a bs s).mp = s.mp := rfl
@[simp] theorem store_mem (a : Addr) (bs : List Byte) :
    (store a bs s).mem = memWriteBytes s.mem a bs := rfl
@[simp] theorem store_pending (a : Addr) (bs : List Byte) : (store a bs s).pending = s.pending := rfl

/-! ### setAttn -/

@[simp] theorem setAttn_straps (r : Reason) : (setAttn r s).straps = s.straps := rfl
@[simp] theorem setAttn_ct (r : Reason) : (setAttn r s).ct = s.ct := rfl
@[simp] theorem setAttn_ag (r : Reason) : (setAttn r s).ag = s.ag := rfl
@[simp] theorem setAttn_gu (r : Reason) : (setAttn r s).gu = s.gu := rfl
@[simp] theorem setAttn_dlc (r : Reason) : (setAttn r s).dlc = s.dlc := rfl
@[simp] theorem setAttn_ri (r : Reason) : (setAttn r s).ri = s.ri := rfl
@[simp] theorem setAttn_tc (r : Reason) : (setAttn r s).tc = s.tc := rfl
@[simp] theorem setAttn_cu (r : Reason) : (setAttn r s).cu = s.cu := rfl
@[simp] theorem setAttn_pm (r : Reason) : (setAttn r s).pm = s.pm := rfl
@[simp] theorem setAttn_ve (r : Reason) : (setAttn r s).ve = s.ve := rfl
@[simp] theorem setAttn_sc (r : Reason) : (setAttn r s).sc = s.sc := rfl
@[simp] theorem setAttn_mp (r : Reason) : (setAttn r s).mp = s.mp := rfl
@[simp] theorem setAttn_mem (r : Reason) : (setAttn r s).mem = s.mem := rfl
@[simp] theorem setAttn_pending (r : Reason) : (setAttn r s).pending = s.pending := rfl

/-! ### issueItems -/

@[simp] theorem issueItems_straps (ts : List WinItem) : (issueItems ts s).straps = s.straps := rfl
@[simp] theorem issueItems_ct (ts : List WinItem) : (issueItems ts s).ct = s.ct := rfl
@[simp] theorem issueItems_ag (ts : List WinItem) : (issueItems ts s).ag = s.ag := rfl
@[simp] theorem issueItems_gu (ts : List WinItem) : (issueItems ts s).gu = s.gu := rfl
@[simp] theorem issueItems_dlc (ts : List WinItem) : (issueItems ts s).dlc = s.dlc := rfl
@[simp] theorem issueItems_ri (ts : List WinItem) : (issueItems ts s).ri = s.ri := rfl
@[simp] theorem issueItems_tc (ts : List WinItem) : (issueItems ts s).tc = s.tc := rfl
@[simp] theorem issueItems_cu (ts : List WinItem) : (issueItems ts s).cu = s.cu := rfl
@[simp] theorem issueItems_pm (ts : List WinItem) : (issueItems ts s).pm = s.pm := rfl
@[simp] theorem issueItems_ve (ts : List WinItem) : (issueItems ts s).ve = s.ve := rfl
@[simp] theorem issueItems_sc (ts : List WinItem) : (issueItems ts s).sc = s.sc := rfl
@[simp] theorem issueItems_wc (ts : List WinItem) :
    (issueItems ts s).wc = { s.wc with queue := s.wc.queue ++ ts } := rfl
@[simp] theorem issueItems_mp (ts : List WinItem) : (issueItems ts s).mp = s.mp := rfl
@[simp] theorem issueItems_mem (ts : List WinItem) : (issueItems ts s).mem = s.mem := rfl
@[simp] theorem issueItems_pending (ts : List WinItem) : (issueItems ts s).pending = s.pending := rfl

/-! ### modRecord -/

@[simp] theorem modRecord_straps (c : Fin 16) (f : CellRecord → CellRecord) : (modRecord c f s).straps = s.straps := rfl
@[simp] theorem modRecord_ct (c : Fin 16) (f : CellRecord → CellRecord) : (modRecord c f s).ct = s.ct := rfl
@[simp] theorem modRecord_ag (c : Fin 16) (f : CellRecord → CellRecord) : (modRecord c f s).ag = s.ag := rfl
@[simp] theorem modRecord_gu (c : Fin 16) (f : CellRecord → CellRecord) : (modRecord c f s).gu = s.gu := rfl
@[simp] theorem modRecord_dlc (c : Fin 16) (f : CellRecord → CellRecord) : (modRecord c f s).dlc = s.dlc := rfl
@[simp] theorem modRecord_ri (c : Fin 16) (f : CellRecord → CellRecord) : (modRecord c f s).ri = s.ri := rfl
@[simp] theorem modRecord_tc (c : Fin 16) (f : CellRecord → CellRecord) : (modRecord c f s).tc = s.tc := rfl
@[simp] theorem modRecord_cu (c : Fin 16) (f : CellRecord → CellRecord) : (modRecord c f s).cu = s.cu := rfl
@[simp] theorem modRecord_pm (c : Fin 16) (f : CellRecord → CellRecord) : (modRecord c f s).pm = s.pm := rfl
@[simp] theorem modRecord_ve (c : Fin 16) (f : CellRecord → CellRecord) : (modRecord c f s).ve = s.ve := rfl
@[simp] theorem modRecord_sc (c : Fin 16) (f : CellRecord → CellRecord) : (modRecord c f s).sc = s.sc := rfl
@[simp] theorem modRecord_wc (c : Fin 16) (f : CellRecord → CellRecord) :
    (modRecord c f s).wc = { s.wc with records := modV s.wc.records c (Option.map f) } := rfl
@[simp] theorem modRecord_mp (c : Fin 16) (f : CellRecord → CellRecord) : (modRecord c f s).mp = s.mp := rfl
@[simp] theorem modRecord_mem (c : Fin 16) (f : CellRecord → CellRecord) : (modRecord c f s).mem = s.mem := rfl
@[simp] theorem modRecord_pending (c : Fin 16) (f : CellRecord → CellRecord) : (modRecord c f s).pending = s.pending :=
    rfl

/-! ### modSect -/

@[simp] theorem modSect_straps (i : Fin 4) (f : Sect → Sect) : (modSect i f s).straps = s.straps := rfl
@[simp] theorem modSect_ct (i : Fin 4) (f : Sect → Sect) : (modSect i f s).ct = s.ct := rfl
@[simp] theorem modSect_ag (i : Fin 4) (f : Sect → Sect) : (modSect i f s).ag = s.ag := rfl
@[simp] theorem modSect_gu (i : Fin 4) (f : Sect → Sect) :
    (modSect i f s).gu = { s.gu with sections := modV s.gu.sections i f } := rfl
@[simp] theorem modSect_dlc (i : Fin 4) (f : Sect → Sect) : (modSect i f s).dlc = s.dlc := rfl
@[simp] theorem modSect_ri (i : Fin 4) (f : Sect → Sect) : (modSect i f s).ri = s.ri := rfl
@[simp] theorem modSect_tc (i : Fin 4) (f : Sect → Sect) : (modSect i f s).tc = s.tc := rfl
@[simp] theorem modSect_cu (i : Fin 4) (f : Sect → Sect) : (modSect i f s).cu = s.cu := rfl
@[simp] theorem modSect_pm (i : Fin 4) (f : Sect → Sect) : (modSect i f s).pm = s.pm := rfl
@[simp] theorem modSect_ve (i : Fin 4) (f : Sect → Sect) : (modSect i f s).ve = s.ve := rfl
@[simp] theorem modSect_sc (i : Fin 4) (f : Sect → Sect) : (modSect i f s).sc = s.sc := rfl
@[simp] theorem modSect_wc (i : Fin 4) (f : Sect → Sect) : (modSect i f s).wc = s.wc := rfl
@[simp] theorem modSect_mp (i : Fin 4) (f : Sect → Sect) : (modSect i f s).mp = s.mp := rfl
@[simp] theorem modSect_mem (i : Fin 4) (f : Sect → Sect) : (modSect i f s).mem = s.mem := rfl
@[simp] theorem modSect_pending (i : Fin 4) (f : Sect → Sect) : (modSect i f s).pending = s.pending := rfl

/-! ### modChannel -/

@[simp] theorem modChannel_straps (i : Fin 12) (f : Channel → Channel) : (modChannel i f s).straps = s.straps := rfl
@[simp] theorem modChannel_ct (i : Fin 12) (f : Channel → Channel) : (modChannel i f s).ct = s.ct := rfl
@[simp] theorem modChannel_ag (i : Fin 12) (f : Channel → Channel) : (modChannel i f s).ag = s.ag := rfl
@[simp] theorem modChannel_gu (i : Fin 12) (f : Channel → Channel) :
    (modChannel i f s).gu = { s.gu with channels := modV s.gu.channels i f } := rfl
@[simp] theorem modChannel_dlc (i : Fin 12) (f : Channel → Channel) : (modChannel i f s).dlc = s.dlc := rfl
@[simp] theorem modChannel_ri (i : Fin 12) (f : Channel → Channel) : (modChannel i f s).ri = s.ri := rfl
@[simp] theorem modChannel_tc (i : Fin 12) (f : Channel → Channel) : (modChannel i f s).tc = s.tc := rfl
@[simp] theorem modChannel_cu (i : Fin 12) (f : Channel → Channel) : (modChannel i f s).cu = s.cu := rfl
@[simp] theorem modChannel_pm (i : Fin 12) (f : Channel → Channel) : (modChannel i f s).pm = s.pm := rfl
@[simp] theorem modChannel_ve (i : Fin 12) (f : Channel → Channel) : (modChannel i f s).ve = s.ve := rfl
@[simp] theorem modChannel_sc (i : Fin 12) (f : Channel → Channel) : (modChannel i f s).sc = s.sc := rfl
@[simp] theorem modChannel_wc (i : Fin 12) (f : Channel → Channel) : (modChannel i f s).wc = s.wc := rfl
@[simp] theorem modChannel_mp (i : Fin 12) (f : Channel → Channel) : (modChannel i f s).mp = s.mp := rfl
@[simp] theorem modChannel_mem (i : Fin 12) (f : Channel → Channel) : (modChannel i f s).mem = s.mem := rfl
@[simp] theorem modChannel_pending (i : Fin 12) (f : Channel → Channel) : (modChannel i f s).pending = s.pending := rfl

/-! ### mapSects -/

@[simp] theorem mapSects_straps (f : Fin 4 → Sect → Sect) : (mapSects f s).straps = s.straps := rfl
@[simp] theorem mapSects_ct (f : Fin 4 → Sect → Sect) : (mapSects f s).ct = s.ct := rfl
@[simp] theorem mapSects_ag (f : Fin 4 → Sect → Sect) : (mapSects f s).ag = s.ag := rfl
@[simp] theorem mapSects_gu (f : Fin 4 → Sect → Sect) :
    (mapSects f s).gu = { s.gu with sections := mapV f s.gu.sections } := rfl
@[simp] theorem mapSects_dlc (f : Fin 4 → Sect → Sect) : (mapSects f s).dlc = s.dlc := rfl
@[simp] theorem mapSects_ri (f : Fin 4 → Sect → Sect) : (mapSects f s).ri = s.ri := rfl
@[simp] theorem mapSects_tc (f : Fin 4 → Sect → Sect) : (mapSects f s).tc = s.tc := rfl
@[simp] theorem mapSects_cu (f : Fin 4 → Sect → Sect) : (mapSects f s).cu = s.cu := rfl
@[simp] theorem mapSects_pm (f : Fin 4 → Sect → Sect) : (mapSects f s).pm = s.pm := rfl
@[simp] theorem mapSects_ve (f : Fin 4 → Sect → Sect) : (mapSects f s).ve = s.ve := rfl
@[simp] theorem mapSects_sc (f : Fin 4 → Sect → Sect) : (mapSects f s).sc = s.sc := rfl
@[simp] theorem mapSects_wc (f : Fin 4 → Sect → Sect) : (mapSects f s).wc = s.wc := rfl
@[simp] theorem mapSects_mp (f : Fin 4 → Sect → Sect) : (mapSects f s).mp = s.mp := rfl
@[simp] theorem mapSects_mem (f : Fin 4 → Sect → Sect) : (mapSects f s).mem = s.mem := rfl
@[simp] theorem mapSects_pending (f : Fin 4 → Sect → Sect) : (mapSects f s).pending = s.pending := rfl

/-! ### mapChannels -/

@[simp] theorem mapChannels_straps (f : Fin 12 → Channel → Channel) : (mapChannels f s).straps = s.straps := rfl
@[simp] theorem mapChannels_ct (f : Fin 12 → Channel → Channel) : (mapChannels f s).ct = s.ct := rfl
@[simp] theorem mapChannels_ag (f : Fin 12 → Channel → Channel) : (mapChannels f s).ag = s.ag := rfl
@[simp] theorem mapChannels_gu (f : Fin 12 → Channel → Channel) :
    (mapChannels f s).gu = { s.gu with channels := mapV f s.gu.channels } := rfl
@[simp] theorem mapChannels_dlc (f : Fin 12 → Channel → Channel) : (mapChannels f s).dlc = s.dlc := rfl
@[simp] theorem mapChannels_ri (f : Fin 12 → Channel → Channel) : (mapChannels f s).ri = s.ri := rfl
@[simp] theorem mapChannels_tc (f : Fin 12 → Channel → Channel) : (mapChannels f s).tc = s.tc := rfl
@[simp] theorem mapChannels_cu (f : Fin 12 → Channel → Channel) : (mapChannels f s).cu = s.cu := rfl
@[simp] theorem mapChannels_pm (f : Fin 12 → Channel → Channel) : (mapChannels f s).pm = s.pm := rfl
@[simp] theorem mapChannels_ve (f : Fin 12 → Channel → Channel) : (mapChannels f s).ve = s.ve := rfl
@[simp] theorem mapChannels_sc (f : Fin 12 → Channel → Channel) : (mapChannels f s).sc = s.sc := rfl
@[simp] theorem mapChannels_wc (f : Fin 12 → Channel → Channel) : (mapChannels f s).wc = s.wc := rfl
@[simp] theorem mapChannels_mp (f : Fin 12 → Channel → Channel) : (mapChannels f s).mp = s.mp := rfl
@[simp] theorem mapChannels_mem (f : Fin 12 → Channel → Channel) : (mapChannels f s).mem = s.mem := rfl
@[simp] theorem mapChannels_pending (f : Fin 12 → Channel → Channel) : (mapChannels f s).pending = s.pending := rfl

/-! ### modPort -/

@[simp] theorem modPort_straps (p : Port) (f : PortRec → PortRec) : (modPort p f s).straps = s.straps := rfl
@[simp] theorem modPort_ct (p : Port) (f : PortRec → PortRec) : (modPort p f s).ct = s.ct := rfl
@[simp] theorem modPort_ag (p : Port) (f : PortRec → PortRec) : (modPort p f s).ag = s.ag := rfl
@[simp] theorem modPort_gu (p : Port) (f : PortRec → PortRec) : (modPort p f s).gu = s.gu := rfl
@[simp] theorem modPort_dlc (p : Port) (f : PortRec → PortRec) : (modPort p f s).dlc = s.dlc := rfl
@[simp] theorem modPort_ri (p : Port) (f : PortRec → PortRec) :
    (modPort p f s).ri = { s.ri with ports := modV s.ri.ports p f } := rfl
@[simp] theorem modPort_tc (p : Port) (f : PortRec → PortRec) : (modPort p f s).tc = s.tc := rfl
@[simp] theorem modPort_cu (p : Port) (f : PortRec → PortRec) : (modPort p f s).cu = s.cu := rfl
@[simp] theorem modPort_pm (p : Port) (f : PortRec → PortRec) : (modPort p f s).pm = s.pm := rfl
@[simp] theorem modPort_ve (p : Port) (f : PortRec → PortRec) : (modPort p f s).ve = s.ve := rfl
@[simp] theorem modPort_sc (p : Port) (f : PortRec → PortRec) : (modPort p f s).sc = s.sc := rfl
@[simp] theorem modPort_wc (p : Port) (f : PortRec → PortRec) : (modPort p f s).wc = s.wc := rfl
@[simp] theorem modPort_mp (p : Port) (f : PortRec → PortRec) : (modPort p f s).mp = s.mp := rfl
@[simp] theorem modPort_mem (p : Port) (f : PortRec → PortRec) : (modPort p f s).mem = s.mem := rfl
@[simp] theorem modPort_pending (p : Port) (f : PortRec → PortRec) : (modPort p f s).pending = s.pending := rfl

/-! ### modStream -/

@[simp] theorem modStream_straps (u : Fin 2) (f : Stream → Stream) : (modStream u f s).straps = s.straps := rfl
@[simp] theorem modStream_ct (u : Fin 2) (f : Stream → Stream) : (modStream u f s).ct = s.ct := rfl
@[simp] theorem modStream_ag (u : Fin 2) (f : Stream → Stream) : (modStream u f s).ag = s.ag := rfl
@[simp] theorem modStream_gu (u : Fin 2) (f : Stream → Stream) : (modStream u f s).gu = s.gu := rfl
@[simp] theorem modStream_dlc (u : Fin 2) (f : Stream → Stream) : (modStream u f s).dlc = s.dlc := rfl
@[simp] theorem modStream_ri (u : Fin 2) (f : Stream → Stream) : (modStream u f s).ri = s.ri := rfl
@[simp] theorem modStream_tc (u : Fin 2) (f : Stream → Stream) : (modStream u f s).tc = s.tc := rfl
@[simp] theorem modStream_cu (u : Fin 2) (f : Stream → Stream) :
    (modStream u f s).cu = modV s.cu u f := rfl
@[simp] theorem modStream_pm (u : Fin 2) (f : Stream → Stream) : (modStream u f s).pm = s.pm := rfl
@[simp] theorem modStream_ve (u : Fin 2) (f : Stream → Stream) : (modStream u f s).ve = s.ve := rfl
@[simp] theorem modStream_sc (u : Fin 2) (f : Stream → Stream) : (modStream u f s).sc = s.sc := rfl
@[simp] theorem modStream_wc (u : Fin 2) (f : Stream → Stream) : (modStream u f s).wc = s.wc := rfl
@[simp] theorem modStream_mp (u : Fin 2) (f : Stream → Stream) : (modStream u f s).mp = s.mp := rfl
@[simp] theorem modStream_mem (u : Fin 2) (f : Stream → Stream) : (modStream u f s).mem = s.mem := rfl
@[simp] theorem modStream_pending (u : Fin 2) (f : Stream → Stream) : (modStream u f s).pending = s.pending := rfl

/-! ### modPool -/

@[simp] theorem modPool_straps (p : Fin 6) (f : Pool → Pool) : (modPool p f s).straps = s.straps := rfl
@[simp] theorem modPool_ct (p : Fin 6) (f : Pool → Pool) : (modPool p f s).ct = s.ct := rfl
@[simp] theorem modPool_ag (p : Fin 6) (f : Pool → Pool) : (modPool p f s).ag = s.ag := rfl
@[simp] theorem modPool_gu (p : Fin 6) (f : Pool → Pool) : (modPool p f s).gu = s.gu := rfl
@[simp] theorem modPool_dlc (p : Fin 6) (f : Pool → Pool) : (modPool p f s).dlc = s.dlc := rfl
@[simp] theorem modPool_ri (p : Fin 6) (f : Pool → Pool) : (modPool p f s).ri = s.ri := rfl
@[simp] theorem modPool_tc (p : Fin 6) (f : Pool → Pool) : (modPool p f s).tc = s.tc := rfl
@[simp] theorem modPool_cu (p : Fin 6) (f : Pool → Pool) : (modPool p f s).cu = s.cu := rfl
@[simp] theorem modPool_pm (p : Fin 6) (f : Pool → Pool) :
    (modPool p f s).pm = { s.pm with pools := modV s.pm.pools p f } := rfl
@[simp] theorem modPool_ve (p : Fin 6) (f : Pool → Pool) : (modPool p f s).ve = s.ve := rfl
@[simp] theorem modPool_sc (p : Fin 6) (f : Pool → Pool) : (modPool p f s).sc = s.sc := rfl
@[simp] theorem modPool_wc (p : Fin 6) (f : Pool → Pool) : (modPool p f s).wc = s.wc := rfl
@[simp] theorem modPool_mp (p : Fin 6) (f : Pool → Pool) : (modPool p f s).mp = s.mp := rfl
@[simp] theorem modPool_mem (p : Fin 6) (f : Pool → Pool) : (modPool p f s).mem = s.mem := rfl
@[simp] theorem modPool_pending (p : Fin 6) (f : Pool → Pool) : (modPool p f s).pending = s.pending := rfl

/-! ### modView -/

@[simp] theorem modView_straps (v : Fin 4) (f : View → View) : (modView v f s).straps = s.straps := rfl
@[simp] theorem modView_ct (v : Fin 4) (f : View → View) : (modView v f s).ct = s.ct := rfl
@[simp] theorem modView_ag (v : Fin 4) (f : View → View) : (modView v f s).ag = s.ag := rfl
@[simp] theorem modView_gu (v : Fin 4) (f : View → View) : (modView v f s).gu = s.gu := rfl
@[simp] theorem modView_dlc (v : Fin 4) (f : View → View) : (modView v f s).dlc = s.dlc := rfl
@[simp] theorem modView_ri (v : Fin 4) (f : View → View) : (modView v f s).ri = s.ri := rfl
@[simp] theorem modView_tc (v : Fin 4) (f : View → View) : (modView v f s).tc = s.tc := rfl
@[simp] theorem modView_cu (v : Fin 4) (f : View → View) : (modView v f s).cu = s.cu := rfl
@[simp] theorem modView_pm (v : Fin 4) (f : View → View) : (modView v f s).pm = s.pm := rfl
@[simp] theorem modView_ve (v : Fin 4) (f : View → View) :
    (modView v f s).ve = { s.ve with views := modV s.ve.views v f } := rfl
@[simp] theorem modView_sc (v : Fin 4) (f : View → View) : (modView v f s).sc = s.sc := rfl
@[simp] theorem modView_wc (v : Fin 4) (f : View → View) : (modView v f s).wc = s.wc := rfl
@[simp] theorem modView_mp (v : Fin 4) (f : View → View) : (modView v f s).mp = s.mp := rfl
@[simp] theorem modView_mem (v : Fin 4) (f : View → View) : (modView v f s).mem = s.mem := rfl
@[simp] theorem modView_pending (v : Fin 4) (f : View → View) : (modView v f s).pending = s.pending := rfl

/-! ### modBinding -/

@[simp] theorem modBinding_straps (b : Fin 4) (f : Binding → Binding) : (modBinding b f s).straps = s.straps := rfl
@[simp] theorem modBinding_ct (b : Fin 4) (f : Binding → Binding) : (modBinding b f s).ct = s.ct := rfl
@[simp] theorem modBinding_ag (b : Fin 4) (f : Binding → Binding) : (modBinding b f s).ag = s.ag := rfl
@[simp] theorem modBinding_gu (b : Fin 4) (f : Binding → Binding) : (modBinding b f s).gu = s.gu := rfl
@[simp] theorem modBinding_dlc (b : Fin 4) (f : Binding → Binding) : (modBinding b f s).dlc = s.dlc := rfl
@[simp] theorem modBinding_ri (b : Fin 4) (f : Binding → Binding) : (modBinding b f s).ri = s.ri := rfl
@[simp] theorem modBinding_tc (b : Fin 4) (f : Binding → Binding) : (modBinding b f s).tc = s.tc := rfl
@[simp] theorem modBinding_cu (b : Fin 4) (f : Binding → Binding) : (modBinding b f s).cu = s.cu := rfl
@[simp] theorem modBinding_pm (b : Fin 4) (f : Binding → Binding) : (modBinding b f s).pm = s.pm := rfl
@[simp] theorem modBinding_ve (b : Fin 4) (f : Binding → Binding) :
    (modBinding b f s).ve = { s.ve with bindings := modV s.ve.bindings b f } := rfl
@[simp] theorem modBinding_sc (b : Fin 4) (f : Binding → Binding) : (modBinding b f s).sc = s.sc := rfl
@[simp] theorem modBinding_wc (b : Fin 4) (f : Binding → Binding) : (modBinding b f s).wc = s.wc := rfl
@[simp] theorem modBinding_mp (b : Fin 4) (f : Binding → Binding) : (modBinding b f s).mp = s.mp := rfl
@[simp] theorem modBinding_mem (b : Fin 4) (f : Binding → Binding) : (modBinding b f s).mem = s.mem := rfl
@[simp] theorem modBinding_pending (b : Fin 4) (f : Binding → Binding) : (modBinding b f s).pending = s.pending := rfl

/-! ### modPane -/

@[simp] theorem modPane_straps (p : Fin 4) (f : Pane → Pane) : (modPane p f s).straps = s.straps := rfl
@[simp] theorem modPane_ct (p : Fin 4) (f : Pane → Pane) : (modPane p f s).ct = s.ct := rfl
@[simp] theorem modPane_ag (p : Fin 4) (f : Pane → Pane) : (modPane p f s).ag = s.ag := rfl
@[simp] theorem modPane_gu (p : Fin 4) (f : Pane → Pane) : (modPane p f s).gu = s.gu := rfl
@[simp] theorem modPane_dlc (p : Fin 4) (f : Pane → Pane) : (modPane p f s).dlc = s.dlc := rfl
@[simp] theorem modPane_ri (p : Fin 4) (f : Pane → Pane) : (modPane p f s).ri = s.ri := rfl
@[simp] theorem modPane_tc (p : Fin 4) (f : Pane → Pane) : (modPane p f s).tc = s.tc := rfl
@[simp] theorem modPane_cu (p : Fin 4) (f : Pane → Pane) : (modPane p f s).cu = s.cu := rfl
@[simp] theorem modPane_pm (p : Fin 4) (f : Pane → Pane) : (modPane p f s).pm = s.pm := rfl
@[simp] theorem modPane_ve (p : Fin 4) (f : Pane → Pane) : (modPane p f s).ve = s.ve := rfl
@[simp] theorem modPane_sc (p : Fin 4) (f : Pane → Pane) :
    (modPane p f s).sc = { s.sc with panes := modV s.sc.panes p f } := rfl
@[simp] theorem modPane_wc (p : Fin 4) (f : Pane → Pane) : (modPane p f s).wc = s.wc := rfl
@[simp] theorem modPane_mp (p : Fin 4) (f : Pane → Pane) : (modPane p f s).mp = s.mp := rfl
@[simp] theorem modPane_mem (p : Fin 4) (f : Pane → Pane) : (modPane p f s).mem = s.mem := rfl
@[simp] theorem modPane_pending (p : Fin 4) (f : Pane → Pane) : (modPane p f s).pending = s.pending := rfl

/-! ### modLoad -/

@[simp] theorem modLoad_straps (p : Fin 2) (f : PaletteLoad → PaletteLoad) : (modLoad p f s).straps = s.straps := rfl
@[simp] theorem modLoad_ct (p : Fin 2) (f : PaletteLoad → PaletteLoad) : (modLoad p f s).ct = s.ct := rfl
@[simp] theorem modLoad_ag (p : Fin 2) (f : PaletteLoad → PaletteLoad) : (modLoad p f s).ag = s.ag := rfl
@[simp] theorem modLoad_gu (p : Fin 2) (f : PaletteLoad → PaletteLoad) : (modLoad p f s).gu = s.gu := rfl
@[simp] theorem modLoad_dlc (p : Fin 2) (f : PaletteLoad → PaletteLoad) : (modLoad p f s).dlc = s.dlc := rfl
@[simp] theorem modLoad_ri (p : Fin 2) (f : PaletteLoad → PaletteLoad) : (modLoad p f s).ri = s.ri := rfl
@[simp] theorem modLoad_tc (p : Fin 2) (f : PaletteLoad → PaletteLoad) : (modLoad p f s).tc = s.tc := rfl
@[simp] theorem modLoad_cu (p : Fin 2) (f : PaletteLoad → PaletteLoad) : (modLoad p f s).cu = s.cu := rfl
@[simp] theorem modLoad_pm (p : Fin 2) (f : PaletteLoad → PaletteLoad) : (modLoad p f s).pm = s.pm := rfl
@[simp] theorem modLoad_ve (p : Fin 2) (f : PaletteLoad → PaletteLoad) : (modLoad p f s).ve = s.ve := rfl
@[simp] theorem modLoad_sc (p : Fin 2) (f : PaletteLoad → PaletteLoad) :
    (modLoad p f s).sc = { s.sc with loads := modV s.sc.loads p f } := rfl
@[simp] theorem modLoad_wc (p : Fin 2) (f : PaletteLoad → PaletteLoad) : (modLoad p f s).wc = s.wc := rfl
@[simp] theorem modLoad_mp (p : Fin 2) (f : PaletteLoad → PaletteLoad) : (modLoad p f s).mp = s.mp := rfl
@[simp] theorem modLoad_mem (p : Fin 2) (f : PaletteLoad → PaletteLoad) : (modLoad p f s).mem = s.mem := rfl
@[simp] theorem modLoad_pending (p : Fin 2) (f : PaletteLoad → PaletteLoad) : (modLoad p f s).pending = s.pending := rfl

/-! ### withPending -/

@[simp] theorem withPending_straps (q : List Instr) : (s.withPending q).straps = s.straps := rfl
@[simp] theorem withPending_ct (q : List Instr) : (s.withPending q).ct = s.ct := rfl
@[simp] theorem withPending_ag (q : List Instr) : (s.withPending q).ag = s.ag := rfl
@[simp] theorem withPending_gu (q : List Instr) : (s.withPending q).gu = s.gu := rfl
@[simp] theorem withPending_dlc (q : List Instr) : (s.withPending q).dlc = s.dlc := rfl
@[simp] theorem withPending_ri (q : List Instr) : (s.withPending q).ri = s.ri := rfl
@[simp] theorem withPending_tc (q : List Instr) : (s.withPending q).tc = s.tc := rfl
@[simp] theorem withPending_cu (q : List Instr) : (s.withPending q).cu = s.cu := rfl
@[simp] theorem withPending_pm (q : List Instr) : (s.withPending q).pm = s.pm := rfl
@[simp] theorem withPending_ve (q : List Instr) : (s.withPending q).ve = s.ve := rfl
@[simp] theorem withPending_sc (q : List Instr) : (s.withPending q).sc = s.sc := rfl
@[simp] theorem withPending_wc (q : List Instr) : (s.withPending q).wc = s.wc := rfl
@[simp] theorem withPending_mp (q : List Instr) : (s.withPending q).mp = s.mp := rfl
@[simp] theorem withPending_mem (q : List Instr) : (s.withPending q).mem = s.mem := rfl
@[simp] theorem withPending_pending (q : List Instr) :
    (s.withPending q).pending = q := rfl

end Sys2Proof.Machine
end

