-- ==== Sys2Proof/Laws/Ops.lean ====
section
/-! SUPPORT. One lemma per shared operation: all it can do. -/

namespace Sys2Proof.Machine

/-! ### Vectors -/

@[simp] theorem modV_get {α : Type} {n : Nat} (v : Vector α n) (i : Fin n) (f : α → α) (k : Fin n) :
    (modV v i f)[k] = if k = i then f v[i] else v[k] := by
  simp only [modV, Fin.getElem_fin, Vector.getElem_set]
  by_cases h : k = i
  · subst h; simp
  · rw [if_neg h, if_neg fun e => h (Fin.ext e.symm)]

@[simp] theorem mapV_get {α β : Type} {n : Nat} (f : Fin n → α → β) (v : Vector α n) (k : Fin n) :
    (mapV f v)[k] = f k v[k] := by simp [mapV]

/-! ### Host memory -/

theorem memWrite_keys (m : List Host.Cell) (a : Nat) (b : Byte) (y : Host.Cell) :
    y ∈ memWrite m a b → y ∈ m ∨ y.1 = a := by
  induction m with
  | nil => simp only [memWrite, List.mem_singleton]; rintro rfl; exact .inr rfl
  | cons x m ih =>
    obtain ⟨k, v⟩ := x
    simp only [memWrite]
    split
    · simp only [List.mem_cons]; rintro (rfl | h)
      · exact .inr rfl
      · exact .inl h
    · split
      · simp only [List.mem_cons]; rintro (rfl | h)
        · exact .inr rfl
        · exact .inl (.inr h)
      · simp only [List.mem_cons]; rintro (rfl | h)
        · exact .inl (.inl rfl)
        · exact (ih h).imp .inr id

/-- A write of one byte keeps the canonical form. -/
theorem memWrite_wf (m : List Host.Cell) (a : Nat) (b : Byte) (h : Memory.wf m = true) :
    Memory.wf (memWrite m a b) = true := by
  simp only [Memory.wf, decide_eq_true_eq] at h ⊢
  induction m with
  | nil => simp [memWrite]
  | cons x m ih =>
    obtain ⟨k, v⟩ := x
    rw [List.pairwise_cons] at h
    simp only [memWrite]
    split
    · rename_i hk
      refine List.pairwise_cons.2 ⟨fun y hy => ?_, List.pairwise_cons.2 h⟩
      rcases List.mem_cons.1 hy with rfl | hy
      · exact hk
      · exact Nat.lt_trans hk (h.1 y hy)
    · split
      · rename_i _ e; subst e
        exact List.pairwise_cons.2 h
      · refine List.pairwise_cons.2 ⟨fun y hy => ?_, ih h.2⟩
        rcases memWrite_keys m a b y hy with hy | hy
        · exact h.1 y hy
        · show k < y.1; omega

/-- A write of a run of bytes keeps the canonical form. -/
theorem memWriteBytes_wf (m : List Host.Cell) (a : Addr) (bs : List Byte) (h : Memory.wf m = true) :
    Memory.wf (memWriteBytes m a bs) = true := by
  induction bs generalizing m a with
  | nil => exact h
  | cons b bs ih => exact ih _ _ (memWrite_wf m a.toNat b h)

/-- A byte just written reads as written; every other address reads as before. -/
theorem memRead_memWrite (m : List Host.Cell) (a : Nat) (b : Byte) (k : Nat) :
    Memory.wf m = true → memRead (memWrite m a b) k = if k = a then some b else memRead m k := by
  simp only [Memory.wf, decide_eq_true_eq]
  induction m with
  | nil => simp [memWrite, memRead]
  | cons x m ih =>
    obtain ⟨l, v⟩ := x
    intro h
    rw [List.pairwise_cons] at h
    simp only [memWrite]
    split
    · rfl
    · split
      · rename_i _ e; subst e; simp only [memRead]; split <;> rfl
      · simp only [memRead, ih h.2]
        split
        · rw [if_neg (by omega)]
        · rfl

/-- Writes that reach host memory keep the canonical form, and change nothing but host memory. -/
theorem land_wf (ws : List DataWrite) (s : State) (h : Memory.wf s.mem = true) : Memory.wf (land ws s).mem = true := by
  induction ws generalizing s with
  | nil => exact h
  | cons w ws ih => exact ih _ (memWriteBytes_wf s.mem w.addr w.bytes h)

theorem land_mem (ws : List DataWrite) (s : State) :
    (land ws s).mem = ws.foldl (fun m w => memWriteBytes m w.addr w.bytes) s.mem := by
  induction ws generalizing s with
  | nil => rfl
  | cons w ws ih => exact ih (store w.addr w.bytes s)

theorem land_frame (ws : List DataWrite) (s : State) : land ws s = { s with mem := (land ws s).mem } := by
  induction ws generalizing s with
  | nil => rfl
  | cons w ws ih => exact (ih (store w.addr w.bytes s)).trans rfl

/-- What a run of the PM's writes does: it adds to the window's queue and leaves what waits in `work`. -/
theorem issuePoolWrites_frame (ws : List PoolWrite) (s : State) :
    issuePoolWrites ws s = { s with
      pm := { s.pm with work := (issuePoolWrites ws s).pm.work }
      wc := { s.wc with queue := (issuePoolWrites ws s).wc.queue } } := by
  induction ws generalizing s with
  | nil => rfl
  | cons w ws ih =>
    unfold issuePoolWrites
    split
    · rfl
    · exact (ih _).trans rfl

/-- The memory of the reset state has the canonical form. -/
theorem reset_memory_wf : Memory.wf State.reset.mem = true := by decide

/-! ### Local time, levels and conditions -/

/-- Local time never goes back and reaches the time given (R1). -/
theorem advance_time (t : Time) (s : State) :
    (advance t s).ct.localTime.toNat = max s.ct.localTime.toNat t.toNat := by
  simp only [advance, passSlots_ct]; split <;> omega

/-- R71: the node writes its slot, as the model tests it. -/
theorem writesSlots_iff (s : State) : writesSlots s = true ↔ WritesSlot s := by
  simp only [writesSlots, WritesSlot, isMaster, writesSlot]
  cases s.ct.nodeState <;> cases s.straps.master <;> simp

/-- What the passage of time makes of the BEAT on its way out and of the one that arrives. -/
theorem advance_primaryTx (now : Time) (s : State) :
    (advance now s).ri.primaryTx = s.ri.primaryTx.map (writeSlot (advance now s)) := rfl

theorem advance_beatIn (now : Time) (s : State) :
    (advance now s).ri.beatIn = s.ri.beatIn.map (readSlot (advance now s)) := rfl

/-- A slot that is not owed, or not yet due, is not written (R71). -/
theorem writeSlot_waits {s : State} {x : Sending}
    (h : x.slotOwed = false ∨ nowOf s < x.startsAt + (328 + 64 * s.straps.address.val)) : writeSlot s x = x := by
  refine if_neg fun e => ?_
  obtain ⟨o, e⟩ := Bool.and_eq_true_iff.1 e
  have d : x.startsAt + (328 + 64 * s.straps.address.val) ≤ nowOf s := of_decide_eq_true e
  rcases h with h | h
  · rw [h] at o; exact absurd o (by decide)
  · omega

/-- An owed slot that is due is written where the node writes slots (R71). -/
theorem writeSlot_due {s : State} {x : Sending} (ho : x.slotOwed = true)
    (hd : x.startsAt + (328 + 64 * s.straps.address.val) ≤ nowOf s) :
    writeSlot s x = { x with slotOwed := false, frame := if writesSlots s then stampFrame s x.frame else x.frame } := by
  exact if_pos (Bool.and_eq_true_iff.2 ⟨ho, decide_eq_true hd⟩)

/-- A slot that came unstamped, or is not all in, is no finding yet (R74). -/
theorem readSlot_waits {s : State} {y : BeatInput}
    (h : y.stamped = false ∨ nowOf s < y.sd + (328 + 64 * s.straps.address.val) + 64) : readSlot s y = y := by
  refine if_neg fun e => ?_
  obtain ⟨o, e⟩ := Bool.and_eq_true_iff.1 e
  have d : y.sd + (328 + 64 * s.straps.address.val) + 64 ≤ nowOf s := of_decide_eq_true e
  rcases h with h | h
  · rw [h] at o; exact absurd o (by decide)
  · omega

/-- A stamped slot that is in is a finding of a node that writes slots (R74). -/
theorem readSlot_due {s : State} {y : BeatInput} (hs : y.stamped = true)
    (hd : y.sd + (328 + 64 * s.straps.address.val) + 64 ≤ nowOf s) :
    readSlot s y = { y with stamped := false, duplicate := y.duplicate || writesSlots s } := by
  exact if_pos (Bool.and_eq_true_iff.2 ⟨hs, decide_eq_true hd⟩)

/-- What the passage of time does: the clock moves, and the slots that pass are read and written (R71, R74). -/
theorem advance_slots (now : Time) (s : State) : SlotsPassed now s (advance now s) := by
  have w : writesSlots (advance now s) = true ↔ WritesSlot s := writesSlots_iff (advance now s)
  refine ⟨advance_time now s, rfl, fun h => ?_, fun x h => ⟨fun c => ?_, fun o c => ?_⟩, fun h => ?_,
    fun y h => ⟨fun c => ?_, fun o c => ?_⟩⟩
  · rw [advance_primaryTx, h]; rfl
  · rw [advance_primaryTx, h, Option.map_some, writeSlot_waits c]
  · rw [advance_primaryTx, h, Option.map_some, writeSlot_due o c]
    refine ⟨_, rfl, fun n => ?_, fun b n e => ?_⟩
    · split
      · rcases n with n | n
        · exact absurd (w.1 ‹_›) n
        · unfold stampFrame; split
          · exact absurd ‹_› (n _)
          · rfl
      · rfl
    · rw [if_pos (w.2 n), stampFrame, e]; rfl
  · rw [advance_beatIn, h]; rfl
  · rw [advance_beatIn, h, Option.map_some, readSlot_waits c]
  · rw [advance_beatIn, h, Option.map_some, readSlot_due o c]
    exact ⟨_, rfl, by rw [Bool.or_eq_true, w]⟩

/-! ### Reception on the ring (R61, R64, R69) -/

theorem receivedFrom_iff (s : State) (p : Port) (sd : Time) : receivedFrom s p sd.toNat = true ↔ OnPort s p sd := by
  unfold receivedFrom OnPort RoutedSince routedSince
  cases s.ri.ports[p].upSince <;> simp [and_comm]

theorem onPort_iff (s : State) (p : Port) (sd : Time) : OnPort s p sd ↔ receivedFrom s p sd.toNat = true :=
  (receivedFrom_iff s p sd).symm

theorem onPrimary_iff (s : State) (sd : Time) :
    OnPrimary s sd ↔ s.ri.routedAt ≤ sd.toNat ∧ (s.ri.mode = .alone ∨ receivedFrom s (inputPort s) sd.toNat = true) := by
  rw [OnPrimary, onPort_iff]

/-- A frame on a receive fibre acts where its port receives it, and is ignored elsewhere. -/
theorem onFibre_received {s : State} {p : Port} {sd : Time} (f : State → State) (h : OnPort s p sd) :
    onFibre p sd.toNat f s = f s := by simp [onFibre, (receivedFrom_iff s p sd).2 h]

theorem onFibre_ignored {s : State} {p : Port} {sd : Time} (f : State → State) (h : ¬ OnPort s p sd) :
    onFibre p sd.toNat f s = s.ignored p := by
  rw [onFibre, if_neg fun e => h ((receivedFrom_iff s p sd).1 e)]
  rfl

theorem onPrimary_received {s : State} {sd : Time} (f : State → State) (h : OnPrimary s sd) :
    onPrimary sd.toNat f s = f s := by
  obtain ⟨r, h⟩ := h
  unfold inputPort at h
  unfold onPrimary primaryInput
  cases m : s.ri.mode <;> simp only [m, reduceCtorEq, false_or, if_true, if_false] at h
  case alone => simp [routedSince, show s.ri.routedAt ≤ sd.toNat from r]
  all_goals exact onFibre_received f h

theorem onPrimary_ignored {s : State} {sd : Time} (f : State → State) (h : ¬ OnPrimary s sd) :
    onPrimary sd.toNat f s = s.ignoredInput := by
  have hp : s.ri.mode ≠ .alone → ¬ OnPort s (inputPort s) sd := fun _ q => h ⟨q.1, .inr q⟩
  unfold State.ignoredInput
  unfold inputPort at hp ⊢
  unfold onPrimary primaryInput
  cases m : s.ri.mode <;> simp only [m, reduceCtorEq, ne_eq, not_true_eq_false, not_false_eq_true, if_true, if_false,
    true_implies] at hp ⊢
  case alone =>
    refine if_neg fun e => h ⟨of_decide_eq_true e, .inl m⟩
  all_goals exact onFibre_ignored f hp

/-- What the RI delivers acts; what it strips, removes or does not address to this node does not (R64, R69). -/
theorem deliver_passes {s : State} {sd : Time} {h : FrameHead} (dest : Byte → Bool) (f : State → State)
    (hp : Passes s sd h) (hd : dest h.dest = true) : deliver sd.toNat h dest f s = f s := by
  obtain ⟨ho, h1, h2, h3⟩ := hp
  have r : removable h = false := by simp only [removable, Config.maxHops, Config.maxPayload]; exact decide_eq_false (by omega)
  have z : stripped s h = false := decide_eq_false h1
  rw [deliver, onPrimary_received _ ho]
  simp [r, z, hd]

theorem deliver_kept {s : State} {sd : Time} {h : FrameHead} (dest : Byte → Bool) (f : State → State)
    (ho : OnPrimary s sd) (hk : ¬ (Passes s sd h ∧ dest h.dest = true)) : deliver sd.toNat h dest f s = s := by
  rw [deliver, onPrimary_received _ ho]
  refine if_neg fun e => hk ?_
  simp only [Bool.and_eq_true, Bool.not_eq_true', stripped, removable, decide_eq_false_iff_not, Config.maxHops,
    Config.maxPayload] at e
  have r := not_or.1 (of_decide_eq_false e.1.2)
  exact ⟨⟨ho, e.1.1, Nat.lt_of_not_le r.1, Nat.le_of_not_lt r.2⟩, e.2⟩

/-! ### Changes of the ring mode (R81) -/

theorem setMode_same {m : RingMode} {s : State} (h : s.ri.mode = m) : setMode m s = s := if_pos h

/-- A change of the ring mode reroutes the frames under way, sets RING and moves the RING_WRAP conditions. -/
theorem setMode_changed {m : RingMode} {s : State} (h : s.ri.mode ≠ m) :
    setMode m s = alignWrap portB (alignWrap portA (setAttn .ring { s with ri := reroute m (nowOf s) s.ri })) := if_neg h

/-- What rerouting does to a frame on its way out. -/
theorem cutSending_eq (now : Nat) (moved : Bool) (x : Sending) :
    cutSending now moved x =
      (let y := match x.repeated with
        | none => x
        | some (_, sd) =>
          if x.damaged = false ∧ decide (now < sd + frameTime x.frame) = true then endedSending ((now - sd) / 8 - 1) x else x
       if moved = true ∧ now < y.endsAt then { y with damaged := true } else y) := by
  unfold cutSending
  cases h : x.repeated with
  | none => simp
  | some r =>
    simp only [damageSending, endedSending, arriving, bytesIn, bytesTime, Config.symbolTime, h, if_true, Bool.and_eq_true,
      Bool.not_eq_true', decide_eq_true_eq]

/-- What rerouting does to the frames under way. -/
theorem reroute_changed (m : RingMode) (s : State) :
    RoutingChanged s { s with ri := reroute m (nowOf s) s.ri } := by
  have o : ∀ m, primaryFibre m = outputFibre m := fun m => by cases m <;> rfl
  refine ⟨rfl, rfl, ?_, ?_, ?_, ?_⟩
  · simp only [reroute, copyArriving, arriving]
    refine List.filter_congr fun c _ => ?_
    cases c.damaged <;> simp
  · refine List.map_congr_left fun p _ => ?_
    simp only [cutPlace, copyArriving, arriving, damagePlace, damageCopy, endedPlace, bytesIn, bytesTime, Config.symbolTime,
      Bool.and_eq_true, Option.isNone_iff_eq_none, decide_eq_true_eq, and_self, if_true]
  · simp only [reroute, o]
    refine congrArg (fun f => s.ri.primaryTx.map f) (funext fun x => cutSending_eq _ _ x)
  · intro q
    simp only [reroute, mapV_get, fibreMoved, o]
    exact congrArg (fun f => s.ri.linkTx[q].map f) (funext fun x => cutSending_eq _ _ x)

/-! ### The transmit queue (R94) -/

/-- A burst queued outside CONFIG replaces the one of its key, is appended, or is suppressed on a full queue. -/
theorem queueBurst_cases (b : QBurst) (s : State) (hc : s.ct.nodeState ≠ .config) :
    (∃ i, s.tc.queue.findIdx? (fun x => decide (x.key = b.key)) = some i ∧ queueBurst b s =
        if b.refresh then s else { s with tc := { s.tc with queue := s.tc.queue.set i b } })
    ∨ ((∀ x ∈ s.tc.queue, x.key ≠ b.key) ∧ s.tc.queue.length < 16
        ∧ queueBurst b s = { s with tc := { s.tc with queue := s.tc.queue ++ [b] } })
    ∨ ((∀ x ∈ s.tc.queue, x.key ≠ b.key) ∧ 16 ≤ s.tc.queue.length
        ∧ queueBurst b s = { s with tc := { s.tc with suppressed := s.tc.suppressed + 1 } }) := by
  unfold queueBurst
  rw [if_neg hc]
  cases e : s.tc.queue.findIdx? (fun x => decide (x.key = b.key)) with
  | some i => exact .inl ⟨i, rfl, rfl⟩
  | none =>
    have k : ∀ x ∈ s.tc.queue, x.key ≠ b.key := by simpa [List.findIdx?_eq_none_iff] using e
    by_cases l : s.tc.queue.length < 16
    · exact .inr (.inl ⟨k, l, by simp [Config.burstQueueSize, l]⟩)
    · exact .inr (.inr ⟨k, by omega, by simp [Config.burstQueueSize, l]⟩)

/-- Whatever it does, it touches the transmit queue and the suppressed count alone. -/
theorem queueBurst_frame (b : QBurst) (s : State) : queueBurst b s = { s with tc := { s.tc with
    queue := (queueBurst b s).tc.queue, suppressed := (queueBurst b s).tc.suppressed } } := by
  unfold queueBurst
  split
  · rfl
  · split
    · split <;> rfl
    · split <;> rfl

/-! ### The board -/

@[simp] theorem windowOn_records (s : State) (v : Vector (Option CellRecord) 16) :
    windowOn { s with wc := { s.wc with records := v } } = windowOn s := rfl

/-- A held record that ends while the window is open: its result goes out (R180). -/
theorem finishCell_open {c : Fin 16} {x : CellRecord} {s : State} (r : Result) (h : s.wc.records[c] = some x)
    (hw : windowOn s = true) (hi : x.phase = .kept) :
    finishCell c r s = { s with wc := { s.wc with
      records := s.wc.records.set c (some { x with result := some r, phase := .fields })
      queue := s.wc.queue ++ [writeItem s (.cell c) false (cellOffset c + 2) (leBytes 2 x.tag.toNat),
        writeItem s (.cell c) false (cellOffset c + 0x30) (resultBytes r), flushItem s (.cell c) false] } } := by
  have e : modRecord c (fun rec => { rec with result := some r }) s = { s with wc := { s.wc with
      records := s.wc.records.set c (some { x with result := some r }) } } := by
    simp only [modRecord, modV, h, Option.map]
  unfold finishCell issueResult
  rw [e]
  simp only [Fin.getElem_fin, Vector.getElem_set_self, windowOn_records, hw, hi, modRecord, modV, Option.map,
    Vector.set_set, Bool.true_and, decide_true, if_true, issueItems]
  rfl

/-- A record whose command ends while the window is not open, or whose result is out, keeps the result (R180, R187). -/
theorem finishCell_shut {c : Fin 16} {x : CellRecord} {s : State} (r : Result) (h : s.wc.records[c] = some x)
    (hw : windowOn s = false ∨ x.phase ≠ .kept) :
    finishCell c r s = { s with wc := { s.wc with
      records := s.wc.records.set c (some { x with result := some r }) } } := by
  have e : modRecord c (fun rec => { rec with result := some r }) s = { s with wc := { s.wc with
      records := s.wc.records.set c (some { x with result := some r }) } } := by
    simp only [modRecord, modV, h, Option.map]
  unfold finishCell issueResult
  rw [e]
  have w : (windowOn s && decide (x.phase = .kept)) = false := by rcases hw with hw | hw <;> simp [hw]
  simp only [Fin.getElem_fin, Vector.getElem_set_self, windowOn_records, w, Bool.false_eq_true, if_false]

/-- A free record has no result to take. -/
theorem finishCell_free {c : Fin 16} {s : State} (r : Result) (h : s.wc.records[c] = none) : finishCell c r s = s := by
  have e : modRecord c (fun rec => { rec with result := some r }) s = s := by
    have : s.wc.records.set c none = s.wc.records := by rw [← h]; simp
    simp only [modRecord, modV, h, Option.map, this]
  unfold finishCell issueResult
  rw [e, h]

/-- The end of a cell's command touches the WC's records and queue alone. -/
theorem finishCell_frame (c : Fin 16) (r : Result) (s : State) :
    finishCell c r s = { s with wc := { s.wc with records := (finishCell c r s).wc.records
                                                  queue := (finishCell c r s).wc.queue } } := by
  cases h : s.wc.records[c] with
  | none => rw [finishCell_free r h]
  | some x =>
    cases hw : windowOn s with
    | false => rw [finishCell_shut r h (.inl hw)]
    | true =>
      by_cases hi : x.phase = .kept
      · rw [finishCell_open r h hw hi]
      · rw [finishCell_shut r h (.inr hi)]

/-- What the record of a cell whose command ends becomes. -/
theorem finishCell_records (c : Fin 16) (r : Result) (s : State) :
    (finishCell c r s).wc.records = s.wc.records.set c
      ((s.wc.records[c]).map fun x =>
        { x with result := some r, phase := if windowOn s && decide (x.phase = .kept) then .fields else x.phase }) := by
  cases h : s.wc.records[c] with
  | none => rw [finishCell_free r h, Option.map_none, ← h]; simp
  | some x =>
    cases hw : windowOn s with
    | false => rw [finishCell_shut r h (.inl hw)]; simp
    | true =>
      by_cases hi : x.phase = .kept
      · rw [finishCell_open r h hw hi]; simp [hi]
      · rw [finishCell_shut r h (.inr hi)]; simp [hi]

/-- What the end of a cell's command does to the WC depends on the WC alone. -/
theorem finishCell_wc (c : Fin 16) (r : Result) (s t : State) (h : t.wc = s.wc) :
    finishCell c r t = { t with wc := (finishCell c r s).wc } := by
  have hw : windowOn t = windowOn s := by simp only [windowOn, h]
  have hq (g : Group) (p : Bool) (o : Nat) (bs : List Byte) : writeItem t g p o bs = writeItem s g p o bs := by
    simp only [writeItem, windowAddr, h]
  have hf (g : Group) (p : Bool) : flushItem t g p = flushItem s g p := by simp only [flushItem, windowAddr, h]
  cases hr : s.wc.records[c] with
  | none => rw [finishCell_free r hr, finishCell_free r (h ▸ hr), ← h]
  | some x =>
    have hr' : t.wc.records[c] = some x := h ▸ hr
    cases ho : windowOn s with
    | false => rw [finishCell_shut r hr (.inl ho), finishCell_shut r hr' (.inl (hw.trans ho)), h]
    | true =>
      by_cases hi : x.phase = .kept
      · rw [finishCell_open r hr ho hi, finishCell_open r hr' (hw.trans ho) hi, h, hq, hq, hf]
      · rw [finishCell_shut r hr (.inr hi), finishCell_shut r hr' (.inr hi), h]

/-- Taking a command into a free record (R179, steps 1 and 2). -/
theorem takeRecord_eq (cell : Fin 16) (tag : Half) (cmd : BoardCmd) (s : State) :
    takeRecord cell tag cmd s = s.taken cell tag cmd := by
  unfold takeRecord State.taken State.takenRecords
  cases hw : windowOn s with
  | false => simp only [windowOn_records, hw, Bool.false_eq_true, if_false, List.append_nil]
  | true => simp only [windowOn_records, hw, if_true]; rfl

/-- A free record takes the command: the owner acts on the part that has taken it. -/
theorem takeAs_free {cell : Fin 16} {s : State} (tag : Half) (cmd : BoardCmd) (act : State → State × Reply)
    (h : s.wc.records[cell] = none) :
    takeAs cell tag cmd act s = settleReply cell (act (s.taken cell tag cmd)) := by
  unfold takeAs; rw [h, takeRecord_eq]

/-- A record that holds leaves its cell alone (R178). -/
theorem takeAs_held {cell : Fin 16} {s : State} (tag : Half) (cmd : BoardCmd) (act : State → State × Reply)
    (h : s.wc.records[cell] ≠ none) : takeAs cell tag cmd act s = s := by
  unfold takeAs
  split
  · rfl
  · contradiction

/-- The answer given at once to a command just taken. -/
theorem finishCell_taken (cell : Fin 16) (tag : Half) (cmd : BoardCmd) (r : Result) (s : State) :
    finishCell cell r (s.taken cell tag cmd) = s.answer cell tag cmd r := by
  have h : (s.taken cell tag cmd).wc.records[cell] = some { cmd := cmd, tag := tag } := by
    simp [State.taken, State.takenRecords]
  cases hw : windowOn s with
  | false =>
    rw [finishCell_shut r h (.inl hw)]
    simp [State.taken, State.takenRecords, State.answer, State.answeredRecords, hw]
  | true =>
    rw [finishCell_open r h hw rfl]
    simp [State.taken, State.takenRecords, State.answer, State.answeredRecords, State.answerItems, hw]
    exact ⟨rfl, rfl, rfl⟩

/-- An answer given at once by an owner that changed nothing of the WC. -/
theorem settleReply_answer {cell : Fin 16} {tag : Half} {cmd : BoardCmd} {s t : State} (r : Result)
    (h : t.wc = (s.taken cell tag cmd).wc) :
    settleReply cell (t, .result r) = { t with wc := (s.answer cell tag cmd r).wc } := by
  rw [← finishCell_taken]
  exact finishCell_wc cell r _ t h

/-! ### Damaged frames and reported writes -/

/-- Counting a damaged frame moves the port records alone (R63). -/
theorem countDamaged_frame (rx : Reception) (input : Option Port) (s : State) :
    countDamaged rx input s = { s with ri := { s.ri with ports := (countDamaged rx input s).ri.ports } } := by
  cases input with
  | none => rfl
  | some p => cases h : Reception.marked rx <;> simp only [countDamaged, h] <;> rfl

/-- Every granted write of a frame has a reporting read behind it (R138, R186). -/
theorem unasked_eq_false {unit frame : Nat} {ws : List DataWrite} :
    unasked unit frame ws = false ↔ ∀ w ∈ ws, w.unit = unit → w.frame = frame → 0 < w.asked := by
  simp only [unasked, List.any_eq_false, decide_eq_true_eq, not_and, Nat.pos_iff_ne_zero]

/-- The return of the read behind a frame's last write reports a write with as many reads behind it as some write of the frame. -/
theorem reported_iff {unit frame : Nat} {ws : List DataWrite} {w : DataWrite} :
    reported unit frame ws w = true ↔ ∃ x ∈ ws, x.unit = unit ∧ x.frame = frame ∧ x.asked ≤ w.asked := by
  simp only [reported, List.any_eq_true, decide_eq_true_eq]

/-- Among them are all the writes of the frame. -/
theorem reported_own {ws : List DataWrite} {w : DataWrite} (h : w ∈ ws) : reported w.unit w.frame ws w = true :=
  reported_iff.mpr ⟨w, h, rfl, rfl, Nat.le_refl _⟩

/-- Each write on its way is either reported or stays on its way. -/
theorem reportedWrites_or_remaining {unit frame : Nat} {ws : List DataWrite} {w : DataWrite} :
    w ∈ ws ↔ w ∈ reportedWrites unit frame ws ∨ w ∈ remainingWrites unit frame ws := by
  cases h : reported unit frame ws w <;> simp [reportedWrites, remainingWrites, h]

/-- A frame without a write on its way reports none. -/
theorem reportedWrites_none {unit frame : Nat} {ws : List DataWrite} (h : ∀ w ∈ ws, ¬ (w.unit = unit ∧ w.frame = frame)) :
    reportedWrites unit frame ws = [] ∧ remainingWrites unit frame ws = ws := by
  have none : ∀ w, reported unit frame ws w = false := fun w => by
    rw [Bool.eq_false_iff, ne_eq, reported_iff]
    exact fun ⟨x, hx, hu, hf, _⟩ => h x hx ⟨hu, hf⟩
  constructor <;> simp [reportedWrites, remainingWrites, none]

/-- R186, R159: the report of a receive frame's writes moves host memory and the writes on their way, and nothing else. -/
theorem reportRecv_frame (b : Fin 4) (f : RecvFrame) (s : State) :
    reportRecv b f s = { s with
      ve := { s.ve with flight := remainingWrites b.val f.id s.ve.flight }, mem := (reportRecv b f s).mem } := by
  unfold reportRecv
  rw [land_frame]

/-! ### The drive line -/

/-- R44, R49, R51: a timetable starts neither before its compute event nor before the part's own telegrams leave the line idle, and
is marked where another talker still holds the line. -/
theorem timetableStart_spec (now own lineFree : Int) :
    now ≤ (timetableStart now own lineFree).1 ∧ own ≤ (timetableStart now own lineFree).1
      ∧ ((timetableStart now own lineFree).2 = true ↔ (timetableStart now own lineFree).1 < lineFree) := by
  unfold timetableStart
  dsimp only
  split
  · exact ⟨Int.le_refl _, by omega, by simp only [Bool.false_eq_true, false_iff]; omega⟩
  · split
    · exact ⟨by omega, by omega, by simp only [Bool.false_eq_true, false_iff]; omega⟩
    · exact ⟨by omega, by omega, by simp only [decide_eq_true_eq]; omega⟩

/-- R44: a slot begins neither before its start nor on a line that the part itself still holds. -/
theorem slotBegins_spec (s : State) (d : DriveSlot) : d.start ≤ slotBegins s d ∧ s.dlc.lineFree ≤ slotBegins s d :=
  ⟨Int.le_max_left .., Int.le_max_right ..⟩

end Sys2Proof.Machine
end

