-- ==== Sys2Proof/WellFormed.lean ====
section
/-! DEFINITION. Which commands the outside world can bring: the lengths of the data that come with one. Parameters of host
commands are raw fields of their widths, so every one of them is well formed; their ranges are the part's to check. -/

namespace Sys2Proof

/-- The descriptors that a SET_POOL scan reads: none, or 2 to 8 (R179). -/
def DescRead.listOk (ds : List DescRead) : Bool := decide (ds = [] ∨ (2 ≤ ds.length ∧ ds.length ≤ 8))

/-- A cell as the board read brings it: 44 bytes of parameters (R179, 11.3). -/
def CellImage.wf (c : CellImage) : Bool := decide (c.params.length = 44) && DescRead.listOk c.descs

/-- A VIEW payload holds as many pixel bytes as a frame can carry beside its header (R63). -/
def Segment.wf (g : Segment) : Bool := decide (g.pixels.length ≤ 1004)

/-- A payload that a ring frame can carry (R63). -/
def Payload.wf : Payload → Bool
  | .view g => g.wf
  | .other kind bytes => decide (bytes.length ≤ 1024) && decide (kind = 0 ∨ 5 < kind.toNat)
  | .beat _ | .trip _ | .probe _ | .probeReply _ _ => true

/-- The check that every command of the table passes. -/
def Instr.wf : Instr → Bool
  | .segmentDelivery d => d.body.wf
  | .primaryRepeat _ f => f.payload.wf
  | .secondaryPass _ f => f.payload.wf
  | .fillTargetChoice _ holds => decide (2 ≤ holds.length ∧ holds.length ≤ 8)
  | .paletteReadDone _ data => decide (data.length = 768)
  | .screenReadReturn data => decide (1 ≤ data.length ∧ data.length ≤ 256)
  | .boardScan cells => decide (cells.length = 16) && cells.all CellImage.wf
  | .setPool _ _ _ descs => DescRead.listOk descs
  | .beatArrival sd now _ _ _ _ => decide (sd.toNat ≤ now.toNat)
  | _ => true

end Sys2Proof
end

