-- ==== Sys2Proof/Tests/Slice0.lean ====
section
/-! SUPPORT. Tests: the smoke test of well-formedness, worked cases whose results come from the text of spec/, the reading of
command cells, and for each statement with hypotheses a state and operands that meet them. -/

namespace Sys2Proof.Tests

open Sys2Proof Sys2Proof.Machine

-- One theorem at a time: each waits for the kernel, and waiting threads hold stacks.
set_option Elab.async false

/-! ### Helper states -/

/-- Node 3, an ordinary member, ONLINE, with its window open at 0x10000. -/
def member : State :=
  let s := State.powerOn 3 false
  { s with ct := { s.ct with nodeState := .online }, wc := { s.wc with winbase := 0x10000 } }

/-- Node 0, the line master, ONLINE, with its window open. -/
def master : State :=
  let s := State.powerOn 0 true
  { s with ct := { s.ct with nodeState := .online }, wc := { s.wc with winbase := 0x10000 } }

/-- The part with its node in another state. -/
def nodeIn (n : NodeState) (s : State) : State := { s with ct := { s.ct with nodeState := n } }

/-- The part at a local time. -/
def atTime (t : Time) (s : State) : State := { s with ct := { s.ct with localTime := t } }

/-- The part with the events of its cycle raised up to the intake and the compute event. -/
def raised (intake compute : Bool) (s : State) : State :=
  { s with ct := { s.ct with raisedIn := intake, raisedCo := compute } }

/-- The part with a line trip level term. -/
def lineTerm (l : Level) (s : State) : State := { s with tc := { s.tc with lineTerm := l } }

/-- The part with section 1 in another state. -/
def sect1 (f : Sect → Sect) (s : State) : State := modSect 0 f s

/-- The part with channel 0 in another state, assigned to section 1 with drive address 1. -/
def chan0 (f : Channel → Channel) (s : State) : State :=
  modChannel 0 (fun c => f { c with state := .tracking, sect := some 0, address := some 1 }) s

/-- The part with a command in the record of cell 0. -/
def held (r : CellRecord) (s : State) : State := { s with wc := { s.wc with records := s.wc.records.set 0 (some r) } }

/-- The part with an entry of node `n` in its trip table. -/
def entry (n : NodeAddr) (latched : Bool) (age : Nat) : TripEntry :=
  { key := ⟨n, .input, 2⟩, cls := .note, latched := latched, firstCycle := 0, firstPos := none, lastChange := 0,
    count := 1, seq := none, age := age }

/-- The part with a trip table. -/
def table (es : List TripEntry) (s : State) : State := { s with tc := { s.tc with table := es } }

/-- The part with a local condition. -/
def cond (k : TripKind) (i : Nat) (c : TripClass) (s : State) : State := { s with tc := { s.tc with conds := [⟨k, i, c⟩] } }

/-- The state that a command leads to. -/
def after (c : Instr) (s : State) : State :=
  match exec c s with
  | .next t => t
  | .fault _ | .refused _ => s

/-! ### Well-formedness: each check refuses an ill-formed term -/

def goodSegment : Segment :=
  { source := 1, view := 0, sequence := 1, repeatNo := 0, w := 4, h := 4, index := 0, count := 1, pixelBytes := 16,
    pixels := List.replicate 16 7 }

def headOf (source dest : Byte) : FrameHead := { hop := 0, source := source, dest := dest, length := 20 }

def frameOf (p : Payload) : Frame := { headOf 1 63 with payload := p }

/-- A frame of node `source` delivered for all, its start delimiter in at 1 µs. -/
def delivered {α : Type} (source : Byte) (x : α) : Delivered α := { headOf source 63 with sd := 1000, body := x }

def blankCell : CellImage := { state := 0, code := 0, tag := 0, params := List.replicate 44 0, descs := [] }

theorem test_wf_segment : (Instr.segmentDelivery (delivered 1 goodSegment)).wf = true
    ∧ (Instr.segmentDelivery (delivered 1 { goodSegment with pixels := List.replicate 1005 0 })).wf = false := by decide +kernel

theorem test_wf_payload : (Instr.primaryRepeat 0 (frameOf (.other 9 []))).wf = true
    ∧ (Instr.primaryRepeat 0 (frameOf (.other 3 []))).wf = false
    ∧ (Instr.secondaryPass 0 (frameOf (.other 9 (List.replicate 1025 0)))).wf = false := by decide +kernel

theorem test_wf_holds : (Instr.fillTargetChoice 0 [0, 0]).wf = true ∧ (Instr.fillTargetChoice 0 [0]).wf = false
    ∧ (Instr.fillTargetChoice 0 (List.replicate 9 0)).wf = false := by decide +kernel

theorem test_wf_palette : (Instr.paletteReadDone 0 (List.replicate 767 0)).wf = false := by decide +kernel

theorem test_wf_screen_read : (Instr.screenReadReturn []).wf = false
    ∧ (Instr.screenReadReturn (List.replicate 257 0)).wf = false ∧ (Instr.screenReadReturn [1]).wf = true := by decide +kernel

theorem test_wf_board : (Instr.boardScan (List.replicate 16 blankCell)).wf = true
    ∧ (Instr.boardScan (List.replicate 15 blankCell)).wf = false
    ∧ (Instr.boardScan (List.replicate 16 { blankCell with params := [] })).wf = false := by decide +kernel

theorem test_wf_pool : (Instr.setPool 0 0 ⟨0, 2, 0⟩ [⟨64, 1, 1⟩]).wf = false
    ∧ (Instr.setPool 0 0 ⟨0, 2, 0⟩ [⟨64, 1, 1⟩, ⟨128, 1, 1⟩]).wf = true := by decide +kernel

theorem test_wf_beat : (Instr.beatArrival 5 4 0 0 (headOf 0 63)
      { cycle := 0, theta := 0, v := 0, lineState := .running, level := .none, period := .us250, heal := false,
        lateness := 0, transit := 0, slots := Vector.replicate 32 {} }).wf = false := by decide +kernel

/-! ### Reading cells: bytes written out by the offsets of 11.4 -/

theorem test_cell_set_cycle : decodeCell 0x01 [1, 30, 0, 50, 0, 210, 0] []
    = .setCycle { code := 1, pIn := 30, pCo := 50, pIs := 210 } := by decide +kernel

theorem test_cell_set_section : decodeCell 0x10
      [2, 0xFD, 0xFF, 7, 0, 0x44, 0x33, 0x22, 0x11, 10, 0, 4, 0, 0x10, 0x27, 0, 0, 0xF4, 1, 0xD0, 7, 0, 0, 100, 0] []
    = .setSection { sect := 2, n := 0xFFFD, m := 7, base := 0x11223344, trimStep := 10, k := 4, maxStep := 10000, g := 500,
                    jogLimit := 2000, torqueLimit := 100 } := by decide +kernel

theorem test_cell_raise_trip : decodeCell 0x29 [4, 2] [] = .raiseTrip { index := 4, cls := 2 } := by decide +kernel

theorem test_cell_set_stream : decodeCell 0x30 [1, 2, 128, 3, 0, 16, 0, 2, 4, 3, 2, 1, 125, 0, 100, 0, 64, 0] []
    = .setStream { stream := 1, decimation := 2, threshold := 128, webClass := 3, rowPixels := 4096, pitch := 512,
                   phase := 0x01020304, minPeriod := 125, rowTimeout := 100, webRows := 64 } := by decide +kernel

theorem test_cell_set_receive : decodeCell 0x44 [5, 1, 31, 3, 0, 1] []
    = .setReceive { pool := 5, bind := 1, source := 31, view := 3, timeout := 256 } := by decide +kernel

theorem test_cell_load_palette : decodeCell 0x54 [1, 8, 7, 6, 5, 4, 3, 2, 1] []
    = .loadPalette { palette := 1, address := 0x0102030405060708 } := by decide +kernel

theorem test_cell_memory_order : decodeCell 0x60 [1, 8, 64, 32, 8] []
    = .setMemoryOrder { camerasFirst := 1, camLow := 8, camHigh := 64, scrLow := 32, scrUrgent := 8 } := by decide +kernel

theorem test_cell_unknown : decodeCell 0x17 [] [] = .unknown 0x17 := by decide +kernel

theorem test_no_word_spells_a_command : decodeTableWord 8 1 = none := by decide +kernel

/-! ### Worked cases of the manual, and values worked out by hand from its rules -/

/-- "Worked case: phase scaling" of chapter 1. -/
theorem test_phase_scaling : scalePhases .us250 .us1000 ⟨40, 80, 200⟩ = ⟨160, 320, 800⟩
    ∧ scalePhases .us1000 .us125 ⟨160, 320, 800⟩ = ⟨20, 40, 100⟩
    ∧ scalePhases .us1000 .us125 ⟨0, 11, 32⟩ = ⟨14, 25, 105⟩ := by decide +kernel

/-- "Worked case: extrapolation" of chapter 1, its last four rows. -/
theorem test_extrapolation : extrapolate 1000000 6815 205 = 1005457 ∧ extrapolate 1000000 1 128 = 1000001
    ∧ extrapolate 1000000 (-1) 128 = 999999 ∧ extrapolate 4294967000 1000 255 = 700 := by decide +kernel

/-- The master at the end of a cycle, with a speed, a demand and limits. -/
def rolling (v demand : Int) (aDown aStop : Nat) : State :=
  { master with ag := { master.ag with v := v, demand := demand, vMax := 6815, aDown := aDown, aStop := aStop } }

/-- R8: "v = −30 with demand 500 and a_down = 100 becomes 70". -/
theorem test_speed_through_zero : (after (.cycleStart 250000) (rolling (-30) 500 100 1)).ag.v = 70 := by decide +kernel

/-- "Worked case: stop ramp" of chapter 1, its first row. -/
theorem test_stop_ramp :
    (let t := after (.cycleStart 250000) (cond .input 0 .stop (rolling 6815 6815 1 100))
     t.ag.v = 6715 ∧ t.ag.demand = 0 ∧ t.ag.lineState = .stopping) := by decide +kernel

/-- R1 and R8: one nanosecond before the cycle's end nothing starts. -/
theorem test_cycle_end : (after (.cycleStart 249999) (rolling 0 5 1 1)).ct.n = 0
    ∧ (after (.cycleStart 250000) (rolling 0 5 1 1)).ct.n = 1 := by decide +kernel

/-- The master at its compute event with section 1 ENGAGED and Δ = `d`. -/
def gearing (d : Word) (n : Int) (r : Nat) : State :=
  sect1 (fun x => { x with state := .engaged, n := n, m := 7, r := r, phi := 100 })
    { raised true false master with
      ag := { master.ag with theta := d }, gu := { master.gu with continuous := true } }

/-- "Worked case: gear increment" of chapter 2. -/
theorem test_gear_increment :
    (let x := (after (.compute 50000 0) (gearing 6815 3 5)).gu.sections[0]
     x.q = 2921 ∧ x.r = 3 ∧ x.phi = 3021) := by decide +kernel

/-- The same worked case in reverse: Δ = −10, r = 6. -/
theorem test_gear_reverse :
    (let x := (after (.compute 50000 0) (gearing (-10) 3 6)).gu.sections[0]
     x.q = -4 ∧ x.r = 4) := by decide +kernel

/-- "Worked case: debounce" of chapter 5, events 4 to 6. -/
theorem test_debounce :
    (let x : TripInput := { enabled := true, debounce := 2, run := 1 }
     let y := sampledInput true x
     let z := sampledInput true y
     y.run = 2 ∧ y.tripping = false ∧ z.run = 0 ∧ z.tripping = true ∧ (sampledInput false z).run = 1) := by decide +kernel

/-- "Worked case: rows per frame" of chapter 6. -/
theorem test_rows_per_frame : rowsPerFrame 455 = 2305 ∧ rowsPerFrame 512 = 2048 ∧ rowsPerFrame 16 = 65536
    ∧ rowsPerFrame 65535 = 17 := by decide +kernel

/-- "Worked case: crop, limit and clipping" of chapter 8: h is shrunk to 699, CLAMPED. -/
theorem test_view_shrunk :
    (let t := after (.setView 0 7 ⟨0, 1, 63, 2, 1, 0, 500, 100, 3000, 2000, 512⟩) State.reset
     t.ve.views[0].set.h = 699 ∧ (t.wc.records[0]).map (·.result) = some (some
       { code := .ok, clamped := true, data := leBytes 2 699 ++ leBytes 4 1500 ++ leBytes 4 699 })) := by decide +kernel

/-- R11: a limit of 2^22 is taken and one more is refused. -/
theorem test_line_limits :
    (after (.setLineLimits 0 0 ⟨4194304, 0, 1, 1, 1⟩) State.reset).ag.vMax = 4194304
    ∧ (after (.setLineLimits 0 0 ⟨4194305, 0, 1, 1, 1⟩) State.reset).ag.vMax = 0 := by decide +kernel

/-- R10: a demand beyond v_max is clamped and flagged. -/
theorem test_line_speed_clamped :
    (let t := after (.setLineSpeed 0 0 7000) (rolling 0 0 1 1)
     t.ag.demand = 6815 ∧ ((t.wc.records[0]).bind (·.result)).map (·.clamped) = some true) := by decide +kernel

/-- R96: a sequence 128 beyond the last heard is stale. -/
theorem test_stale_burst :
    (let s := { member with tc := { member.tc with heard := member.tc.heard.set 5 (some 10) } }
     let b : Burst := { source := 5, kind := 8, index := 0, cls := 2, state := 1, flags := 0, sequence := 138, count := 1,
                        cycle := 9, position := 0 }
     (after (.trip (delivered 5 b)) s).tc.stale = 1
      ∧ (after (.trip (delivered 5 { b with sequence := 137 })) s).tc.accepted = 1) := by decide +kernel

/-- R172: the duty of code 128 on the square curve is 128 × 128 × 4095 / 65025, rounded down. -/
theorem test_backlight_square :
    (let s := { State.reset with sc := { State.reset.sc with enabled := true } }
     (after (.setBacklight 0 0 ⟨128, 1, 0⟩) s).sc.dutyFormed = 1031) := by decide +kernel

/-- R164 and "Worked case: raster timing" of chapter 9: 400 µs at 72 MHz lie before active line 0. -/
theorem test_raster :
    (let s := { State.reset with sc := { State.reset.sc with
        enabled := true, width := 1280, height := 800, clock := 72, hFront := 48, hSync := 32, hBack := 80, vFront := 3
        vSync := 6, vBack := 14, position := some (20, 112) } }
     (after .screenPixel s).sc.de = true
     ∧ (after .screenPixel { s with sc := { s.sc with position := some (20, 111) } }).sc.de = false
     ∧ (after .screenPixel { s with sc := { s.sc with position := some (822, 1439) } }).sc.position = some (823, 0)
     ∧ (after .screenFrameStart { s with sc := { s.sc with position := some (823, 0) } }).sc.position = some (0, 0)
     ∧ 20 * 1440 = 400 * 72) := by decide +kernel

/-- The part with a port UP since a local time. -/
def upAt (p : Port) (t : Nat) (s : State) : State := modPort p (fun x => { x with state := .up, upSince := some t }) s

/-- The part in a ring mode. -/
def inMode (m : RingMode) (s : State) : State := { s with ri := { s.ri with mode := m } }

/-- The part with a telegram of eight bytes from 1 µs on its drive line. -/
def talking (s : State) : State :=
  { s with dlc := { s.dlc with begun := 1000, driveUntil := 2600, lineFree := 3000, telegram := List.replicate 8 1 } }

/-- A pool of two buffers, the first FILLING. -/
def twoBuffers : Pool :=
  { configured := true, filling := some 0,
    buffers := [{ address := 0x40000, capacity := 4, stride := 64, state := .filling },
                { address := 0x50000, capacity := 4, stride := 64 }] }

/-- The part with a pool. -/
def pool (p : Fin 6) (x : Pool) (s : State) : State := modPool p (fun _ => x) s

/-- R184: one message when a masked reason is set by a register write. -/
theorem test_message :
    (let s := { member with wc := { member.wc with attn := 8 } }
     (after (.attentionMaskWrite 8) s).wc.messages = 1 ∧ (after (.attentionMaskWrite 4) s).wc.messages = 0) := by decide +kernel

/-! ### Witnesses: states and operands that meet the hypotheses of the statements, clause by clause -/

theorem witness_StepTakesFront : State.reset.pending = [] := rfl

theorem witness_MemoryKeptByStep :
    (let s := (store 0x10000 [1, 2] member).withPending [.busError .window]
     MemoryKept s ∧ ∃ t, step s = .next t) :=
  ⟨by unfold MemoryKept; decide +kernel, _, rfl⟩

theorem witness_RemaindersKeptByStep :
    (let s := (gearing 6815 3 6).withPending [.compute 50000 0]
     RemaindersBelow s ∧ ∃ t, step s = .next t) :=
  ⟨by unfold RemaindersBelow; decide +kernel, _, rfl⟩

theorem witness_LimitsKeptByStep :
    (let s := (rolling 0 6815 1 1).withPending [.cycleStart 250000]
     LimitsKept s ∧ ∃ t, step s = .next t) := by
  refine ⟨?_, _, rfl⟩
  simp only [LimitsKept, PhasesOrdered]
  refine ⟨by decide +kernel, (fun _ h => nomatch h), by decide +kernel, by decide +kernel, by decide +kernel,
    (fun _ h => nomatch h)⟩

theorem witness_TripTableKeptByStep :
    (let s := (table [entry 5 false 2047, entry 3 true 0] member).withPending [.compute 50000 0]
     TripTableKept s ∧ ∃ t, step s = .next t) :=
  ⟨by unfold TripTableKept; decide +kernel, _, rfl⟩

theorem witness_CutKeptByStep :
    (let s := (lineTerm .cut (sect1 (fun x => { x with state := .held }) (chan0 id member))).withPending
        [.torque 0 0 ⟨1, 1⟩]
     effLevel s = .cut ∧ CutStands s ∧ ∃ t, step s = .next t) :=
  ⟨by decide +kernel, by unfold CutStands; decide +kernel, _, rfl⟩

theorem witness_OneFillingKeptByStep :
    (let s := (pool 0 twoBuffers member).withPending [.frameCompletion 0]
     OneFilling s ∧ ∃ t, step s = .next t) := by
  refine ⟨?_, _, rfl⟩
  unfold OneFilling
  decide +kernel

theorem witness_StoresBoundedByStep :
    (let s := member.withPending [.triggerFire 0 5]
     StoresBounded s ∧ ∃ t, step s = .next t) :=
  ⟨by unfold StoresBounded; decide +kernel, _, rfl⟩

theorem witness_NodeStateRules :
    (let s := nodeIn .passive member
     s.ct.nodeState = .passive ∧ (∀ a m, Instr.grant ≠ .powerOnReset a m) ∧ ∃ t, exec .grant s = .next t)
    ∧ (State.reset.ct.nodeState = .config ∧ Instr.grant ≠ .runWrite ∧ ∃ t, exec .grant State.reset = .next t)
    ∧ (after .nodeReset member).ct.nodeState = .config :=
  ⟨⟨rfl, by simp, _, rfl⟩, ⟨rfl, by simp, _, rfl⟩, by decide +kernel⟩

theorem witness_LastsUntilPowerOn :
    (let s := cond .duplicate 1 .cut { master with ri := { master.ri with stopped := true } }
     (∀ a m, Instr.nodeReset ≠ .powerOnReset a m) ∧ (∀ now, Instr.nodeReset ≠ .cycleStart now)
     ∧ (∃ t, exec .nodeReset s = .next t) ∧ s.ri.stopped = true ∧ (findCond s .duplicate 1).isSome) :=
  ⟨by simp, by simp, ⟨_, rfl⟩, rfl, by decide +kernel⟩

/-- R186: a power-on reset keeps the place of a pane read on its way, whose data will be discarded. -/
theorem witness_PowerOnDiscardsReads :
    (let s := { member with sc := { member.sc with reads := [[{ line := 0, pane := 0, row := 0, col := 0 }]] } }
     (after (.powerOnReset 3 false) s).sc.reads = [[]]
     ∧ (after (.screenReadReturn [1]) (after (.powerOnReset 3 false) s)).sc.fifo = []) := by decide +kernel

theorem witness_NodeResetActs :
    ((after .nodeReset member).wc.resetting = true ∧ member.wc.resetting = false)
    ∧ (let s := atTime 2599 (talking member)
       s.wc.resetting = false ∧ (nowOf s : Int) < s.dlc.driveUntil ∧ s.dlc.begun ≤ (nowOf s : Int)
       ∧ (after .nodeReset s).dlc.driveUntil = 2600)
    ∧ (let s := atTime 2600 (talking member)
       s.dlc.driveUntil ≤ (nowOf s : Int))
    ∧ ((after .nodeReset member).ct.nodeState ≠ .passive
      ∧ (after .nodeReset (nodeIn .passive member)).ct.nodeState = .passive) := by decide +kernel

/-- R109: a PASSIVE node whose DUPLICATE condition outlasts the node reset, and one that is not PASSIVE. -/
theorem witness_PassiveResetEnd :
    (let s := after .nodeReset (nodeIn .passive (cond .duplicate 1 .cut member))
     let t := after (.nodeResetEnd 5) s
     s.wc.resetting = true ∧ s.ct.nodeState = .passive ∧ s.tc.conds = [⟨.duplicate, 1, .cut⟩]
     ∧ (s.tc.conds.map fun c => (c.kind, c.index)).Nodup ∧ s.tc.table = [] ∧ s.tc.queue = [] ∧ s.tc.conds.length ≤ 16
     ∧ t.tc.table.map (·.key) = [⟨3, .duplicate, 1⟩] ∧ t.tc.queue.map (·.cls) = [.cut] ∧ t.wc.attn.getLsbD 1 = true)
    ∧ (let s := after .nodeReset (cond .duplicate 1 .cut member)
       s.ct.nodeState ≠ .passive ∧ (after (.nodeResetEnd 5) s).tc.table = []) := by decide +kernel

/-- R82, R182, R185: what else a node reset puts back. -/
theorem witness_NodeResetPort :
    (let s := { member with mp := { member.mp with camLow := 9, screen := 4 }, ri := { member.ri with healMark := true }
                            wc := { member.wc with currentB := true } }
     let t := after .nodeReset s
     t.mp.camLow = 8 ∧ t.mp.screen = 0 ∧ t.ri.healMark = false ∧ t.wc.currentB = false) := by decide +kernel

theorem witness_RegisterWrites :
    (State.reset.wc.resetting = false ∧ State.reset.wc.winbase = 0 ∧ 8192 ≤ (0x2000 : Addr).toNat)
    ∧ ((0x1FFF : Addr).toNat < 8192 ∧ member.wc.winbase ≠ 0 ∧ (after .nodeReset member).wc.resetting = true) := by
  decide +kernel

theorem witness_RunStartsNode :
    (after .nodeReset member).wc.resetting = true
    ∧ (State.reset.wc.resetting = false ∧ State.reset.ct.nodeState = .config)
    ∧ (after (.busError .window) member).wc.fault = true
    ∧ (let s := after (.busError .window) (pool 0 twoBuffers member)
       s.wc.resetting = false ∧ s.wc.fault = true ∧ s.wc.winbase ≠ 0 ∧ s.pm.work = []
       ∧ s.pm.pools[(0 : Fin 6)].configured = true ∧ (s.pm.pools[(0 : Fin 6)].buffers[0]?).isSome)
    ∧ (member.wc.resetting = false ∧ member.wc.fault = false ∧ member.ct.nodeState ≠ .config) := by decide +kernel

/-- R86, R88, R180, R187: RUN stores the conditions present; it ends WINDOW, whose entry becomes LATCHED, and goes on with a
result that waited for the window. -/
theorem witness_RunResumes :
    (let s := nodeIn .config (cond .input 2 .note member)
     s.wc.resetting = false ∧ (after .runWrite s).tc.table.map (·.key) = [⟨3, .input, 2⟩])
    ∧ (let kept : CellRecord := { cmd := .ringHeal, tag := 1, result := some (resultOk []), phase := .kept }
       let s := after (.busError .window) (held kept member)
       let t := after .runWrite s
       s.wc.fault = true ∧ s.wc.winbase ≠ 0 ∧ s.pm.work = [] ∧ s.wc.records[(0 : Fin 16)] = some kept
       ∧ s.tc.table.map (·.latched) = [false] ∧ t.tc.table.map (·.latched) = [true]
       ∧ t.wc.records[(0 : Fin 16)] = some { kept with phase := .fields } ∧ t.wc.fault = false
       ∧ (t.wc.queue.map (·.addr)).contains 0x10402 = true) := by decide +kernel

theorem witness_FreeRunningCycleStart :
    (let s := { member with ct := { member.ct with pendingCycle := some ⟨.us500, 30, 50, 210⟩ } }
     CycleEnds 250000 s ∧ ¬ CycleEnds 249999 s ∧ s.straps.master = false ∧ Period.us500 ≠ s.ct.period
     ∧ CycleEnds 250000 member ∧ member.ct.pendingCycle = none ∧ master.straps.master = true) := by
  simp only [CycleEnds]; decide +kernel

theorem witness_LineAxisAtCycleStart :
    CycleEnds 250000 (rolling 5 6815 1 1) ∧ master.straps.master = true ∧ master.ct.nodeState ≠ .config
    ∧ lineLevel (cond .input 0 .cut master) = .cut ∧ lineLevel (cond .input 0 .stop master) = .stop
    ∧ lineLevel master = .none ∧ master.ag.lineState ≠ .stopping ∧ master.ri.stopped = false
    ∧ (rolling 5 6815 1 1).ag.v < (rolling 5 6815 1 1).ag.demand ∧ (rolling 7 6 1 1).ag.demand < (rolling 7 6 1 1).ag.v := by
  simp only [CycleEnds]; decide +kernel

/-- R83: a heal pending at a cycle start, with the line at a standstill and with a demand. -/
theorem witness_HealFlag :
    (let s := { master with ri := { master.ri with heal := some { cell := 0, returns := 0 } } }
     CycleEnds 250000 s ∧ (after (.cycleStart 250000) s).ri.healFlag = true)
    ∧ (let u := rolling 0 6815 1 1
       let s := held { cmd := .ringHeal, tag := 1 }
         { u with ri := { u.ri with heal := some { cell := 0, returns := 0 } } }
       CycleEnds 250000 s ∧ (∀ i : Fin 4, s.gu.sections[i].engageCell ≠ some 0 ∧ 0 ∉ s.gu.sections[i].disengageCells)
       ∧ (after (.cycleStart 250000) s).ri.healFlag = false ∧ (after (.cycleStart 250000) s).ri.heal = none
       ∧ ((after (.cycleStart 250000) s).wc.records[(0 : Fin 16)].bind (·.result)).map (·.code) = some .wrongState) := by
  simp only [CycleEnds]; decide +kernel

/-- The part with input 0 enabled as STOP, debounce 1, `run` differing samples behind it. -/
def input0 (run : Nat) (s : State) : State :=
  { s with tc := { s.tc with inputs := s.tc.inputs.set 0 { enabled := true, debounce := 1, run := run } } }

theorem witness_IntakeSamplesAndScans :
    (let s := input0 1 member
     IntakeComes 30000 s ∧ ¬ IntakeComes 29999 s ∧ windowOn s = true ∧ s.wc.scanning = false)
    ∧ (IntakeComes 30000 State.reset ∧ windowOn State.reset = false)
    ∧ ((input0 1 member).tc.inputs[0].run ≤ (input0 1 member).tc.inputs[0].debounce)
    ∧ ((input0 2 member).tc.inputs[0].enabled = true
      ∧ (input0 2 member).tc.inputs[0].debounce < (input0 2 member).tc.inputs[0].run) := by
  simp only [IntakeComes]; decide +kernel

/-- R41, R42, R91: an input that becomes TRIPPING at the intake event raises the level to STOP, or to CUT. -/
theorem witness_InputRaisesLevel :
    (let s (c : TripClass) := modSect 1 (fun x => { x with state := .engaged })
       (sect1 (fun x => { x with state := .jogging, jogDemand := 7 })
         { member with tc := { member.tc with inputs := member.tc.inputs.set 0 { enabled := true, run := 1, cls := c } } })
     let t (c : TripClass) := after (.inputDebounce 0) (s c)
     effLevel (s .stop) = .none ∧ effLevel (t .stop) = .stop ∧ (t .stop).gu.sections[(0 : Fin 4)].jogDemand = 0
     ∧ (t .stop).gu.sections[(1 : Fin 4)].state = .engaged
     ∧ effLevel (t .cut) = .cut ∧ (t .cut).gu.sections[(1 : Fin 4)].state = .held
     ∧ (t .cut).tc.table.map (·.key) = [⟨3, .input, 0⟩]) := by decide +kernel

/-- R88, R91, R93: two inputs change at one intake event: one comes to trip, its entry and burst made, the other to rest, its entry
LATCHED. -/
theorem witness_InputsReported :
    (let e : TripEntry := { entry 3 false 0 with key := ⟨3, .input, 1⟩, cls := .note }
     let u := table [e] (cond .input 1 .note member)
     let s := { u with tc := { u.tc with inputs :=
       (u.tc.inputs.set 0 { enabled := true, cls := .note }).set 1 { enabled := true, cls := .note, tripping := true } } }
     let t := after (.intake 30000 1) s
     IntakeComes 30000 s ∧ findCond s .input 0 = none
     ∧ t.tc.table.map (fun e => (e.key.index, e.latched)) = [(1, true), (0, false)]
     ∧ t.tc.queue.map (fun q => (q.key.index, q.state)) = [(0, .active), (1, .latched)]
     ∧ t.wc.attn.getLsbD 1 = true) := by
  simp only [IntakeComes]; decide +kernel

/-- A member with a beat taken, at a compute event; `c` tells whether the gear input continues. -/
def beaten (c : Bool) (theta : Word) : State :=
  { raised true false member with
    gu := { member.gu with taken := some { theta := theta, v := 1, lineState := .running }, continuous := c } }

/-- A member that has missed `m` beats. -/
def missing (m : Nat) : State := { raised true false member with ct := { (raised true false member).ct with missed := m } }

theorem witness_ComputeFormsGearInput :
    (ComputeComes 50000 (raised true false member) ∧ ¬ ComputeComes 49999 (raised true false member))
    ∧ ComputeComes 50000 (raised true false State.reset)
    ∧ (ComputeComes 50000 (gearing 5 3 0) ∧ (gearing 5 3 0).straps.master = true)
    ∧ (ComputeComes 50000 (beaten true 7) ∧ (beaten true 7).gu.taken.isSome
      ∧ (let s := beaten true 7
         (gearInput { s with ct := (after (.compute 50000 0) s).ct } 7 1).natAbs < 16777216))
    ∧ (let s := beaten true 0x02000000
       16777216 ≤ (gearInput { s with ct := (after (.compute 50000 0) s).ct } 0x02000000 1).natAbs)
    ∧ ((missing 1).gu.taken = none ∧ (missing 1).ct.missed ≤ 255
      ∧ (after (.compute 50000 0) (missing 1)).ct.missed < (after (.compute 50000 0) (missing 1)).ct.limit)
    ∧ (after (.compute 50000 0) (missing 2)).ct.limit ≤ (after (.compute 50000 0) (missing 2)).ct.missed
    ∧ ((missing 3).straps.master = false ∧ (missing 3).ct.nodeState = .online ∧ (missing 3).ct.limit ≤ (missing 3).ct.missed)
    ∧ (missing 2).ct.missed < (missing 2).ct.limit := by
  simp only [ComputeComes]; decide +kernel

/-- The node states whose gear input is not that of a beat: R14, R16, R43 and R13. -/
theorem witness_ComputeInOtherStates :
    (let s := nodeIn .joining (beaten false 7)
     ComputeComes 50000 s ∧ s.gu.taken.isSome ∧ s.ri.mode = .alone
     ∧ (let u := inMode .wrapB (modPort portA (fun x => { x with delay := some 9 }) s)
        u.ct.nodeState = .joining ∧ u.ri.mode ≠ .alone ∧ u.ri.ports[inputPort u].delay ≠ none
        ∧ (after (.compute 50000 0) u).ct.nodeState = .online))
    ∧ (let s := nodeIn .isolated (beaten true 7)
       ComputeComes 50000 s ∧ s.ct.nodeState = .isolated ∧ (∀ b, s.gu.taken = some b → b.lineState = .running)
       ∧ (after (.compute 50000 0) s).ct.nodeState = .isolated
       ∧ (let u := { s with gu := { s.gu with taken := some { theta := 7, v := 0, lineState := .halted } } }
          (after (.compute 50000 0) u).ct.nodeState = .online))
    ∧ ((nodeIn .isolated (missing 3)).gu.taken = none ∧ (nodeIn .isolated (missing 3)).ct.missed ≤ 255)
    ∧ (let s := nodeIn .passive (beaten true 7)
       ComputeComes 50000 s ∧ s.ct.nodeState = .passive ∧ s.gu.leftIsolated = false
       ∧ ({ s with gu := { s.gu with leftIsolated := true } } : State).gu.leftIsolated = true) := by
  simp only [ComputeComes]
  refine ⟨by decide +kernel, ⟨by decide +kernel, by decide +kernel, fun b h => ?_, by decide +kernel, by decide +kernel⟩,
    by decide +kernel, by decide +kernel⟩
  cases Option.some.inj h
  rfl

/-- The master at its compute event with section 1 as given and channel 0 ACTIVE in it. -/
def moving (f : Sect → Sect) (join : Bool) : State :=
  chan0 (fun c => { c with state := .active, c := 1000, cRem := 4, join := join }) (sect1 f (gearing 6815 3 5))

theorem witness_EngagedStages :
    (let s := moving id false
     ComputeComes 50000 s ∧ SectionsRun s ∧ RemaindersBelow s ∧ s.gu.sections[0].state = .engaged
     ∧ s.gu.channels[0].sect = some 0 ∧ s.gu.channels[0].state = .active ∧ s.gu.channels[0].join = false)
    ∧ (moving id true).gu.channels[0].join = true := by
  simp only [ComputeComes, SectionsRun, RemaindersBelow]
  refine ⟨⟨by decide +kernel, ⟨by decide +kernel, by decide +kernel, by decide +kernel, fun h => absurd h (by decide +kernel)⟩,
    by decide +kernel, by decide +kernel, by decide +kernel, by decide +kernel, by decide +kernel⟩, by decide +kernel⟩

/-- An ENGAGE in cell 0 that completes at the compute event, and one that does not (R36). -/
theorem witness_EngageCompletes :
    (let s := held { cmd := .engage 1, tag := 1 } (moving (fun x => { x with state := .engaging, engageCell := some 0 }) false)
     s.gu.sections[0].state = .engaging ∧ s.gu.sections[0].mark = false ∧ OnlyEngage s 0 0
     ∧ (after (.compute 50000 0) s).gu.sections[0].state = .engaging)
    ∧ (let s := held { cmd := .engage 1, tag := 1 } (sect1 (fun x => { x with state := .engaging, engageCell := some 0 })
         (gearing 6815 3 5))
       OnlyEngage s 0 0 ∧ (s.wc.records[(0 : Fin 16)]).isSome
       ∧ (after (.compute 50000 0) s).gu.sections[0].state = .engaged) := by
  simp only [OnlyEngage]; decide +kernel

theorem witness_RampStages :
    (let s := moving (fun x => { x with state := .jogging, jogDemand := 5 }) false
     ComputeComes 50000 s ∧ SectionsRun s ∧ s.gu.sections[0].state = .jogging ∧ s.gu.channels[0].state = .active
     ∧ s.gu.channels[0].sect = some 0)
    ∧ (let s := moving (fun x => { x with state := .releasing, u := 9 }) false
       ComputeComes 50000 s ∧ s.gu.sections[0].state = .releasing)
    ∧ (let s := moving (fun x => { x with state := .held }) false
       ComputeComes 50000 s ∧ s.gu.sections[0].state = .held ∧ s.gu.sections[1].state = .unset)
    ∧ (chan0 (fun c => { c with state := .faulted }) member).gu.channels[0].state = .faulted
    ∧ (chan0 id member).gu.channels[0].state = .tracking
    ∧ (let s := lineTerm .cut (moving id false)
       ComputeComes 50000 s ∧ s.ct.nodeState ≠ .config ∧ effLevel (after (.compute 50000 0) s) = .cut
       ∧ s.gu.channels[0].state = .active)
    ∧ (let s := lineTerm .stop (moving (fun x => { x with state := .jogging, jogDemand := 5, jogSpeed := 2 }) false)
       effLevel (after (.compute 50000 0) s) = .stop
       ∧ (after (.compute 50000 0) s).gu.sections[0].state = .jogging)
    ∧ (let s := moving (fun x => { x with state := .jogging, jogDemand := 5 }) false
       let t := after (.compute 50000 0) s
       effLevel s = .none ∧ effLevel t = .none ∧ WrapsNote s ∧ t.gu.sections[0].jogDemand = 5
       ∧ t.gu.sections[0].jogSpeed = 1) := by
  simp only [ComputeComes, SectionsRun]
  refine ⟨⟨by decide +kernel, ⟨by decide +kernel, by decide +kernel, by decide +kernel, fun h => absurd h (by decide +kernel)⟩,
    by decide +kernel, by decide +kernel, by decide +kernel⟩, by decide +kernel, by decide +kernel, by decide +kernel,
    by decide +kernel, by decide +kernel, by decide +kernel, by decide +kernel⟩

/-- R37, R38, R40: a DISENGAGE ends DONE when its release ramp, or the jog ramp, comes to rest. -/
theorem witness_DisengageDone :
    (let s (x : SectionState) := held { cmd := .disengage 1, tag := 1 }
       (moving (fun y => { y with state := x, u := 1, jogSpeed := 1, disengageCells := [0] }) false)
     let t (x : SectionState) := after (.compute 50000 0) (s x)
     OnlyDisengage (s .releasing) 0 0 ∧ (t .releasing).gu.sections[(0 : Fin 4)].state = .held
     ∧ ((t .releasing).wc.records[(0 : Fin 16)].bind (·.result)).map (·.code) = some .ok
     ∧ (t .jogging).gu.sections[(0 : Fin 4)].state = .held
     ∧ ((t .jogging).wc.records[(0 : Fin 16)].bind (·.result)).map (·.code) = some .ok) := by
  simp only [OnlyDisengage]; decide +kernel

theorem witness_EngageRelation :
    (let s := moving (fun x => { x with state := .engaging, mark := true }) false
     ComputeComes 50000 s ∧ SectionsRun s ∧ RemaindersBelow s ∧ s.gu.sections[0].state = .engaging
     ∧ s.gu.sections[0].mark = true ∧ s.gu.channels[0].sect = some 0 ∧ s.gu.channels[0].state = .active) := by
  simp only [ComputeComes, SectionsRun, RemaindersBelow]
  refine ⟨by decide +kernel, ⟨by decide +kernel, by decide +kernel, by decide +kernel, fun h => absurd h (by decide +kernel)⟩,
    by decide +kernel, by decide +kernel, by decide +kernel, by decide +kernel, by decide +kernel⟩

/-- An exchange slot of channel 0. -/
def slot0 : DriveSlot :=
  { channel := 0, start := 62000, address := 1, setpoint := 7, feedforward := 0, engaged := true, inSync := false, limit := 5 }

/-- A member with a slot of its timetable waiting. -/
def slotted (s : State) : State := chan0 id { s with dlc := { s.dlc with slots := [slot0] } }

theorem witness_IssueSyncAndQuietWindow :
    (let s := slotted (raised true true member)
     IssueComes 210000 s ∧ ¬ IssueComes 209999 s ∧ s.ct.nodeState ≠ .config ∧ windowOn s = true ∧ s.wc.publish = .idle)
    ∧ (let s := raised true true State.reset
       IssueComes 210000 s ∧ s.ct.nodeState = .config ∧ windowOn s = false)
    ∧ (let s := { raised true true member with wc := { member.wc with publish := .header } }
       IssueComes 210000 s ∧ windowOn s = true ∧ s.wc.publish ≠ .idle)
    ∧ (let s := raised true true { member with dlc := { member.dlc with
         begun := 209000, driveUntil := 213800, telegram := List.replicate 24 1 } }
       IssueComes 210000 s ∧ (nowOf (advance 210000 s) : Int) < s.dlc.driveUntil
       ∧ s.dlc.telegram.head?.any (fun b => b ≠ 0) = true ∧ s.dlc.begun ≤ (nowOf (advance 210000 s) : Int)
       ∧ s.dlc.driveUntil ≤ (nowOf (advance 213800 s) : Int) ∧ (after (.issue 210000) s).dlc.driveUntil = 210200)
    ∧ (after (.issue 210000) (raised true true member)).dlc.sync = some { cycle := 0, since := 210000 }
    ∧ member.dlc.sync = none := by
  simp only [IssueComes]; decide +kernel

/-- A beat that node 0 launches for cycle `n`. -/
def beatOf (n : Word) : Beat :=
  { cycle := n, theta := 10, v := 1, lineState := .running, level := .none, period := .us250, heal := false, lateness := 200,
    transit := 0, slots := Vector.replicate 32 { mark := 200 } }

/-- A member to which a beat's start delimiter came at 252 700. -/
def hearing : State :=
  { member with ri := { member.ri with beatIn := some { sd := 252700, transit := 2500, duplicate := false } } }

theorem witness_BeatArrives :
    ((after .nodeReset member).wc.resetting = true)
    ∧ (Passes State.reset 5 (headOf 5 63) ∧ State.reset.wc.resetting = false ∧ State.reset.ct.nodeState = .config)
    ∧ (Passes master 5 (headOf 5 63) ∧ master.wc.resetting = false ∧ master.ct.nodeState ≠ .config)
    ∧ (let s := hearing
       let S : Int := 252700 - 2500 - 200
       Passes s 252700 (headOf 0 63) ∧ s.wc.resetting = false ∧ s.ct.nodeState ≠ .config ∧ s.straps.master = false
       ∧ s.ri.beatIn = some { sd := (252700 : Time).toNat, transit := 2500, stamped := false, duplicate := false }
       ∧ (nowOf (advance 255000 s) : Int) < S + 1000 * (s.ct.pCo : Int)
       ∧ (beatOf 1).cycle = s.ct.n + 1 ∧ (beatOf 1).period = s.ct.period ∧ s.ct.pendingCycle = none
       ∧ S + 1000 * (s.ct.pCo : Int) ≤ (nowOf (advance 300000 s) : Int)
       ∧ (beatOf 0).cycle = s.ct.n ∧ s.ct.raisedCo = false ∧ (raised true true s).ct.raisedCo = true
       ∧ ((beatOf 5).cycle ≠ s.ct.n ∧ (beatOf 5).cycle ≠ s.ct.n + 1 ∧ s.ct.lock = false)) := by
  simp only [Passes, onPrimary_iff]; decide +kernel

/-- R61, R64, R69: where a beat is not the node's to take, and the boundary of each test. -/
theorem witness_Reception :
    (let s := inMode .through (upAt portA 1000 member)
     OnPrimary s 1000 ∧ ¬ OnPrimary s 999 ∧ ¬ OnPort s portB 1000 ∧ Passes s 1000 (headOf 5 63)
     ∧ ¬ Passes s 1000 (headOf 3 63) ∧ Passes s 1000 { headOf 5 63 with hop := 63, length := 1024 }
     ∧ ¬ Passes s 1000 { headOf 5 63 with hop := 64 } ∧ ¬ Passes s 1000 { headOf 5 63 with length := 1025 })
    ∧ (inMode .wrapA (upAt portB 1000 member)).ri.ports[inputPort (inMode .wrapA member)] = (upAt portB 1000 member).ri.ports[portB]
    ∧ ((headOf 5 63).dest = 63 ∧ (headOf 5 3).dest ≠ 63 ∧ (headOf 5 3).dest = byte member.straps.address.val) := by
  simp only [Passes, onPrimary_iff, onPort_iff]; decide +kernel

/-- R3, R6, R13, R74, R75, R99: a beat that adopts a period, one on a stamped slot, one in HOLDOVER, and one whose slots contradict an entry. -/
theorem witness_BeatAdopted :
    (let s := raised true true { hearing with ct := { hearing.ct with pendingCycle := some ⟨.us250, 40, 60, 220⟩ } }
     let t := after (.beatArrival 252700 255000 0 0 (headOf 0 63) { beatOf 1 with period := .us500 }) s
     s.ct.raisedCo = true ∧ t.ct.period = .us500 ∧ t.ct.pIn = 80 ∧ t.ct.lock = true ∧ t.ct.n = 1 ∧ t.ct.raisedIn = false)
    ∧ (let s := { hearing with ri := { hearing.ri with
         beatIn := some { sd := 252700, transit := 2500, stamped := true, duplicate := false } } }
       let t := after (.beatArrival 252700 255000 0 0 (headOf 0 63) (beatOf 1)) s
       s.ct.nodeState ≠ .passive ∧ t.ct.nodeState = .passive ∧ effLevel t = .cut)
    ∧ (let s := raised true true (nodeIn .holdover hearing)
       (after (.beatArrival 252700 255000 0 0 (headOf 0 63) (beatOf 1)) s).ct.nodeState = .online)
    ∧ (let b := { beatOf 9 with slots := (beatOf 9).slots.set 5 { mark := 9 } }
       Contradicted hearing b (entry 5 false 1) ∧ ¬ Contradicted hearing b { entry 5 false 1 with lastChange := 9 }
       ∧ ¬ Contradicted hearing b (entry 4 false 1) ∧ (∀ x, hearing.ri.beatIn = some x → x.sd ≠ 252701)) := by decide +kernel

/-- A burst of node 5: COMMAND 2, class STOP. -/
def burst5 (state flags seq : Byte) : Burst :=
  { source := 5, kind := 8, index := 2, cls := 2, state := state, flags := flags, sequence := seq, count := 1, cycle := 9,
    position := 0 }

theorem witness_BurstsAndExpiry :
    ((after .nodeReset member).wc.resetting = true ∧ tripKindOf 0 = none ∧ classOf 4 = none ∧ burstStateOf 0 = none
      ∧ TripKind.indices .beatLost ≤ 1)
    ∧ (let d := delivered 5 (burst5 1 0 1)
       let b := d.body
       Passes member d.sd d.toFrameHead ∧ d.dest = 63
       ∧ member.wc.resetting = false ∧ b.source.toNat = (5 : NodeAddr).val ∧ tripKindOf b.kind = some .command
       ∧ b.index.toNat < TripKind.indices .command ∧ classOf b.cls = some .stop ∧ burstStateOf b.state = some .active
       ∧ member.tc.heard[(5 : NodeAddr)] = none ∧ findEntry member ⟨5, .command, 2⟩ = none
       ∧ member.tc.table.length < 32)
    ∧ (let s := { member with tc := { member.tc with heard := member.tc.heard.set 5 (some 1) } }
       s.tc.heard[(5 : NodeAddr)] = some 1 ∧ (burst5 1 0 1).sequence = 1 ∧ 128 ≤ ((burst5 1 0 129).sequence - 1).toNat
       ∧ (burst5 1 0 128).sequence ≠ 1 ∧ ((burst5 1 0 128).sequence - 1).toNat < 128 ∧ (burst5 1 0 1).flags.getLsbD 0 = false
       ∧ (burst5 1 1 1).flags.getLsbD 0 = true)
    ∧ burstStateOf (burst5 3 0 1).state = some .cleared
    ∧ TripTableKept (table [entry 5 false 2048, entry 6 false 2047, entry 3 false 4000] member) := by
  simp only [Passes, onPrimary_iff]
  refine ⟨by decide +kernel, by decide +kernel, by decide +kernel, by decide +kernel, ?_⟩
  unfold TripTableKept
  decide +kernel

/-- R41, R42, R99: a beat at which no event is due: nothing but what it brings has changed; one that brings CUT, and a foreign
one on the line master. -/
theorem witness_BeatAlone :
    (let s := raised true false hearing
     let t := after (.beatArrival 252700 255000 0 0 (headOf 0 63) (beatOf 0)) s
     (nowOf (advance 255000 s) : Int) < 250000 + 1000 * (t.ct.pCo : Int) ∧ (beatOf 0).cycle = s.ct.n ∧ s.ct.raisedIn = true
     ∧ t.ct.start = 250000 ∧ t.wc = s.wc ∧ t.cu = s.cu ∧ t.pm = s.pm ∧ t.tc.conds = s.tc.conds)
    ∧ (let s := raised true true hearing
       let s := { s with ct := { s.ct with raisedIs := true } }
       let t := after (.beatArrival 252700 255000 0 0 (headOf 0 63) (beatOf 1)) s
       s.ct.raisedIn = true ∧ s.ct.raisedCo = true ∧ s.ct.raisedIs = true
       ∧ (nowOf (advance 255000 s) : Int) < 250000 + 1000 * (t.ct.pIn : Int) ∧ t.ct.n = 1)
    ∧ (let s := sect1 (fun x => { x with state := .engaged }) (raised true false hearing)
       let t := after (.beatArrival 252700 255000 0 0 (headOf 0 63) { beatOf 0 with level := .cut }) s
       effLevel t = .cut ∧ effLevel s ≠ .cut ∧ t.gu.sections[(0 : Fin 4)].state = .held)
    ∧ (let t := after (.beatArrival 5 9 0 0 (headOf 5 63) (beatOf 1)) master
       findCond master .duplicate 1 = none ∧ findCond t .duplicate 1 = some ⟨.duplicate, 1, .cut⟩ ∧ effLevel t = .cut
       ∧ t.tc.table.map (·.key) = [⟨0, .duplicate, 1⟩]) := by decide +kernel

/-- A full trip table of node 5, its entry of index 7 as given. -/
def fullTable (latched : Bool) : List TripEntry :=
  (List.range 32).map fun i => { entry 5 (latched && decide (i = 7)) 0 with key := ⟨5, .channel, i⟩ }

/-- R89: a full table with a LATCHED NOTE to replace, and with none; R95: the node's turn, and another's. -/
theorem witness_FullTableAndRefresh :
    (let s := table (fullTable true) member
     let old : TripEntry := { entry 5 true 0 with key := ⟨5, .channel, 7⟩ }
     TripTableKept s ∧ findEntry s ⟨5, .command, 2⟩ = none ∧ 32 ≤ s.tc.table.length ∧ TripClass.stop ≠ .note
     ∧ s.tc.table = s.tc.table.take 7 ++ old :: s.tc.table.drop 8 ∧ old.latched = true
     ∧ old.cls = .note ∧ (∀ e ∈ s.tc.table.take 7, e.latched = false ∨ e.cls ≠ .note)
     ∧ old.key.source ≠ s.straps.address
     ∧ (after (.trip (delivered 5 (burst5 1 0 1))) s).tc.replacements = 1)
    ∧ (let s := table (fullTable false) member
       (∀ e ∈ s.tc.table, e.latched = false ∨ e.cls ≠ .note)
       ∧ (after (.trip (delivered 5 (burst5 1 0 1))) s).tc.overflows = 1)
    ∧ (let s := table [entry 3 true 8, { entry 3 true 9 with key := ⟨3, .input, 1⟩ }]
         { raised true false member with ct := { (raised true false member).ct with n := 19 } }
       let t := after (.compute 50000 0) s
       ComputeComes 50000 s ∧ s.ct.nodeState ≠ .config ∧ s.ct.n.toNat % 16 = s.straps.address.val % 16
       ∧ t.tc.table.map (·.age) = [9, 10] ∧ t.tc.queue.map (·.key) = [⟨3, .input, 1⟩] ∧ s.tc.queue = [])
    ∧ member.ct.n.toNat % 16 ≠ member.straps.address.val % 16 := by
  simp only [TripTableKept, ComputeComes]
  decide +kernel

/-- R87, R89, R97, R98: a CLEARED burst, whose place an unstored condition takes; an own condition that meets a full table; a
compute event at which a remote entry reaches its age, and another does not. -/
theorem witness_TableMoves :
    (let e : TripEntry := { entry 5 false 0 with key := ⟨5, .command, 2⟩ }
     let s := table [e, entry 6 false 0] (cond .input 2 .stop member)
     let t := after (.trip (delivered 5 (burst5 3 0 1))) s
     findEntry s ⟨5, .command, 2⟩ = some e ∧ (5 : NodeAddr) ≠ s.straps.address
     ∧ unstored s = [⟨.input, 2, .stop⟩] ∧ TripTableKept s
     ∧ t.tc.table.map (·.key) = [⟨6, .input, 2⟩, ⟨3, .input, 2⟩] ∧ t.tc.queue.map (·.key) = [⟨3, .input, 2⟩]
     ∧ unstored (table [e] member) = [] ∧ (after (.trip (delivered 5 (burst5 3 0 1))) (table [e] member)).tc.table = [])
    ∧ (let s := table (fullTable true) (input0 2 member)
       let t := after (.inputDebounce 0) s
       32 ≤ s.tc.table.length ∧ findEntry s (ownKey s .input 0) = none
       ∧ findEntry t ⟨3, .input, 0⟩ = some (entryOf s s.ct.n ⟨.input, 0, .stop⟩) ∧ t.tc.replacements = 1
       ∧ t.tc.queue.map (·.key) = [⟨3, .input, 0⟩])
    ∧ (let s := table (fullTable false) (input0 2 member)
       (after (.inputDebounce 0) s).tc.overflows = 1 ∧ (after (.inputDebounce 0) s).tc.table = s.tc.table
       ∧ effLevel (after (.inputDebounce 0) s) = .stop)
    ∧ (let s := table [entry 5 false 2047, entry 6 false 2046] (raised true false member)
       let t := after (.compute 50000 0) s
       ComputeComes 50000 s ∧ TripTableKept s ∧ t.tc.expiries = 1 ∧ t.tc.table = [entry 6 false 2047]) := by
  simp only [TripTableKept, ComputeComes]; decide +kernel

/-- A member whose exchange with channel 0 is in progress. -/
def exchanging : State :=
  let s := slotted (raised true true member)
  { s with dlc := { s.dlc with slots := [], exchange := some { slot := slot0, start := 62000, torque := false } } }

/-- A reply of drive 1. -/
def reply1 : List Byte :=
  let b := [1, 0] ++ List.replicate 20 0
  b ++ beBytes 2 (crc16 b).toNat

theorem witness_DriveExchange :
    (let s := chan0 id (raised true false member)
     ComputeComes 50000 s ∧ s.ct.nodeState ≠ .config
     ∧ (after (.compute 50000 0) s).dlc.slots.map (·.start) = [50000]
     ∧ (after (.compute 50000 55000) s).dlc.slots.map (·.start) = [55000]
     ∧ (after (.compute 50000 55001) s).dlc.busyStart = true)
    ∧ (let s := slotted member
     s.dlc.slots = [slot0] ∧ s.dlc.exchange = none ∧ slot0.start ≤ (nowOf (advance 62000 s) : Int)
     ∧ (nowOf (advance 61999 s) : Int) < slot0.start)
    ∧ (let s := exchanging
       let x : Exchange := { slot := slot0, start := 62000, torque := false }
       s.dlc.exchange = some x ∧ x.start + 6800 ≤ (nowOf (advance 68800 s) : Int)
       ∧ (nowOf (advance 68799 s) : Int) < x.start + 6800
       ∧ x.start + 4800 ≤ (nowOf (advance 66800 s) : Int) ∧ (nowOf (advance 66799 s) : Int) < x.start + 4800
       ∧ x.start + 9600 ≤ (nowOf (advance 71600 s) : Int) ∧ (nowOf (advance 71599 s) : Int) < x.start + 9600
       ∧ (nowOf (advance 73600 s) : Int) ≤ x.start + 11600
       ∧ x.start + 11600 < (nowOf (advance 73601 s) : Int) ∧ s.gu.channels[(0 : Fin 12)].state ≠ .free)
    ∧ (reply1.length = 24 ∧ reply1.drop 22 = beBytes 2 (crc16 (reply1.take 22)).toNat
      ∧ (reply1.getD 0 0).toNat = slot0.address)
    ∧ (let bad := reply1.set 5 1
       bad.length = 24 ∧ bad.drop 22 ≠ beBytes 2 (crc16 (bad.take 22)).toNat) := by
  simp only [ComputeComes]; decide +kernel

/-- R44, R51: a SYNC that waits at COMPUTE goes first, on a line that falls idle in time and on one that stays busy; it holds a
SETPOINT back, and so does a line that the part's own telegram leaves idle later. -/
theorem witness_SetpointHeldBack :
    (let s := chan0 id (raised true false { member with dlc := { member.dlc with sync := some { cycle := 0, since := 49000 } } })
     (after (.compute 50000 52000) s).dlc.slots.map (·.start) = [53600]
     ∧ (after (.compute 50000 60000) s).dlc.slots.map (·.start) = [55600]
     ∧ (after (.compute 50000 60000) s).dlc.busyStart = true)
    ∧ (let s := slotted { member with dlc := { member.dlc with lineFree := 62500 } }
       (after (.setpoint 62499) s).dlc.exchange = none
       ∧ (after (.setpoint 62500) s).dlc.exchange.map (·.start) = some 62500
       ∧ (after (.setpoint 62500) { s with dlc := { s.dlc with sync := some { cycle := 0, since := 60000 } } }).dlc.exchange
          = none) := by decide +kernel

/-- R23, R56, R183: the reply that makes an ACTIVE channel FAULTED takes its correction and its join from it. -/
theorem witness_FaultRaised :
    (let b : List Byte := [1, 2] ++ List.replicate 20 0
     let reply := b ++ beBytes 2 (crc16 b).toNat
     let s := modChannel 0 (fun c => { c with state := .active, w := 5, c := 6, cRem := 3, join := true, cls := .note }) exchanging
     let t := after (.actual 71600 reply false) s
     let d := t.gu.channels[(0 : Fin 12)]
     d.state = .faulted ∧ d.w = 0 ∧ d.c = 0 ∧ d.cRem = 1 ∧ d.join = false ∧ d.driveCtr = 1
     ∧ t.tc.table.map (fun e => (e.key, e.cls)) = [(⟨3, .channel, 0⟩, .note)] ∧ t.tc.queue.length = 1
     ∧ t.wc.version = s.wc.version + 1 ∧ t.wc.attn.getLsbD 1 = true) := by decide +kernel

/-- R41, R48: the level rises to CUT while a SETPOINT with torque enable is on the line, one section ENGAGING and one RELEASING. -/
theorem witness_CutSpoilsTelegram :
    (let x : Exchange := { slot := slot0, start := 62000, torque := true }
     let u := atTime 63000 { exchanging with dlc := { exchanging.dlc with
       exchange := some x, begun := 62000, driveUntil := 66800, telegram := List.replicate 24 1 } }
     let v := held { cmd := .engage 1, tag := 1 } (sect1 (fun y => { y with state := .engaging, engageCell := some 0 }) u)
     let s := modSect 1 (fun y => { y with state := .releasing, disengageCells := [1] })
       { v with wc := { v.wc with records := v.wc.records.set 1 (some { cmd := .disengage 2, tag := 2 }) } }
     let t := after (.raiseTrip 5 0 ⟨15, 3⟩) s
     RisesToCut s t ∧ s.dlc.exchange = some x ∧ (nowOf s : Int) < s.dlc.driveUntil ∧ s.dlc.telegram.length = 24
     ∧ t.dlc.exchange = none ∧ t.dlc.telegram.drop 22 = [0xFE, 0xFE] ∧ t.dlc.telegram.take 22 = List.replicate 22 1
     ∧ OnlyEngage s 0 0 ∧ OnlyDisengage s 1 1 ∧ t.gu.sections[(1 : Fin 4)].state = .held
     ∧ (t.wc.records[(0 : Fin 16)].bind (·.result)).map (·.code) = some .tripped
     ∧ (t.wc.records[(1 : Fin 16)].bind (·.result)).map (·.code) = some .ok) := by
  simp only [RisesToCut, OnlyEngage, OnlyDisengage]; decide +kernel

/-- R43: a node leaves ISOLATED with an ENGAGE and a DISENGAGE pending. -/
theorem witness_IsolationCancels :
    (let b : TakenBeat := { theta := 7, v := 0, lineState := .halted }
     let u := nodeIn .isolated (beaten true 7)
     let v := held { cmd := .engage 1, tag := 1 } (sect1 (fun y => { y with state := .engaging, engageCell := some 0 })
       { u with gu := { u.gu with taken := some b } })
     let s := modSect 1 (fun y => { y with state := .releasing, disengageCells := [1] })
       { v with wc := { v.wc with records := v.wc.records.set 1 (some { cmd := .disengage 2, tag := 2 }) } }
     let t := after (.compute 50000 0) s
     t.ct.nodeState = .online ∧ OnlyEngage s 0 0 ∧ OnlyDisengage s 1 1
     ∧ (t.wc.records[(0 : Fin 16)].bind (·.result)).map (·.code) = some .cancelled
     ∧ (t.wc.records[(1 : Fin 16)].bind (·.result)).map (·.code) = some .cancelled) := by
  simp only [OnlyEngage, OnlyDisengage]; decide +kernel

/-- R13, R43: the first compute event of a node that became PASSIVE while ISOLATED. -/
theorem witness_PassiveAfterIsolated :
    (let u := nodeIn .passive (beaten true 7)
     let s := chan0 (fun c => { c with state := .active, s := 77, c := 9, w := 8 })
       (held { cmd := .engage 1, tag := 1 } (sect1 (fun y => { y with state := .engaging, engageCell := some 0 })
         { u with gu := { u.gu with leftIsolated := true } }))
     let t := after (.compute 50000 0) s
     ComputeComes 50000 s ∧ effLevel s = .none ∧ OnlyEngage s 0 0 ∧ s.ri.heal = none
     ∧ t.gu.sections[(0 : Fin 4)].state = .held ∧ t.gu.channels[(0 : Fin 12)].hold = 77
     ∧ t.gu.channels[(0 : Fin 12)].s = 77 ∧ t.gu.channels[(0 : Fin 12)].c = 0
     ∧ (t.wc.records[(0 : Fin 16)].bind (·.result)).map (·.code) = some .cancelled) := by
  simp only [OnlyEngage, ComputeComes]; decide +kernel

/-- R50, R56: a reply that ends NO_REPLY, and a missing reply below the limit; the channel is FAULTED with that flag alone. -/
theorem witness_ChannelConditionEnds :
    (let s := cond .channel 0 .stop (modChannel 0 (fun c => { c with
       state := .faulted, flags := { noReply := true }, present := { noReply := true }, noReplyCtr := 3 }) exchanging)
     let t := after (.actual 71600 reply1 false) s
     findCond s .channel 0 ≠ none ∧ t.tc.conds = [] ∧ t.gu.channels[(0 : Fin 12)].state = .faulted
     ∧ t.gu.channels[(0 : Fin 12)].flags = { noReply := true } ∧ t.gu.channels[(0 : Fin 12)].present = {}
     ∧ (after (.replyWindowClose 73601) s).tc.conds = s.tc.conds)
    ∧ (let t := after (.replyWindowClose 73601) exchanging
       t.gu.channels[(0 : Fin 12)].noReplyCtr = 1 ∧ t.gu.channels[(0 : Fin 12)].state = .tracking ∧ t.tc.conds = []) := by
  decide +kernel

/-- R53, R55, R56: replies that make FOLLOWING and DRIVE_FAULT present, and one that makes neither. -/
theorem witness_ReplyFaults :
    (let b : List Byte := [1, 2, 1, 0, 0, 0] ++ List.replicate 16 0
     let reply := b ++ beBytes 2 (crc16 b).toNat
     let s := modChannel 0 (fun c => { c with hist2 := .withTorque, followCount := 1 }) exchanging
     let c := (after (.actual 71600 reply false) s).gu.channels[(0 : Fin 12)]
     c.state = .faulted ∧ c.flags = { driveFault := true } ∧ c.err = -16777216
     ∧ (after (.actual 71600 reply1 false) s).gu.channels[(0 : Fin 12)].state = .tracking
     ∧ (let u := modChannel 0 (fun c => { c with followLimit := 16777215 }) s
        (after (.actual 71600 reply false) u).gu.channels[(0 : Fin 12)].flags
          = { following := true, driveFault := true })) := by decide +kernel

/-- The master with a heal run under way. -/
def healing (run : Nat) : State :=
  { master with ri := { master.ri with healFlag := true, healRun := run, heal := some { cell := 0, returns := run }
                                       present := master.ri.present.set 4 (some 3) } }

theorem witness_ReturningBeatActs :
    (member.straps.master = false ∧ master.straps.master = true ∧ master.wc.resetting = false
      ∧ (after .nodeReset master).wc.resetting = true ∧ OnPrimary master 1000
      ∧ ¬ OnPrimary (inMode .through master) 1000)
    ∧ ((delivered 0 (beatOf 1)).source = byte master.straps.address.val ∧ (delivered 0 (beatOf 1)).dest = 63
      ∧ (delivered 4 (beatOf 1)).source ≠ byte master.straps.address.val ∧ (headOf 0 4).dest ≠ 63)
    ∧ ((beatOf 200).slots[(0 : NodeAddr)].mark = (beatOf 200).cycle.setWidth 8
      ∧ (beatOf 1).slots[(4 : NodeAddr)].mark ≠ (beatOf 1).cycle.setWidth 8)
    ∧ (let s := healing 7
       let d := delivered 0 (beatOf 1)
       s.ri.heal = some { cell := 0, returns := 7 } ∧ s.ri.healFlag = true
       ∧ (after (.returningBeat d) s).ri.healRun = 8 ∧ (after (.returningBeat d) (healing 6)).ri.healRun = 7
       ∧ (after (.returningBeat d) s).ri.present[(4 : NodeAddr)] = some 4 ∧ s.ct.limit ≤ 4)
    ∧ ((held { cmd := .ringHeal, tag := 1 } (healing 7)).wc.records[(0 : Fin 16)]).isSome
    ∧ ((healing 7).ri.present[(4 : NodeAddr)] = some 3 ∧ master.ct.limit ≤ 3 ∧ master.ri.present[(4 : NodeAddr)] = none)
    ∧ ((healing 8).ri.heal = some { cell := 0, returns := 8 } ∧ 8 ≤ (healing 8).ri.healRun ∧ (healing 7).ri.healRun < 8
      ∧ master.ri.heal = none ∧ master.ri.healFlag = false)
    ∧ (let s := table [entry 5 false 0, entry 4 false 0] master
       let b := { beatOf 9 with slots := (beatOf 9).slots.set 5 { mark := 9 } }
       TripTableKept s ∧ Contradicted s b (entry 5 false 0) ∧ ¬ Contradicted s b (entry 4 false 0)
       ∧ (after (.returningBeat (delivered 0 b)) s).tc.reconciliations = 1) := by
  simp only [onPrimary_iff, TripTableKept]; decide +kernel

/-- A member whose port A has a probe outstanding, launched at 1 µs. -/
def probing : State :=
  modPort portA (fun x => { x with outstanding := some (7, 1000) }) (upAt portA 500 member)

theorem witness_CableMeasurement :
    (OnPort probing portA 500 ∧ ¬ OnPort probing portA 499 ∧ ¬ OnPort probing portB 500)
    ∧ (let s := raised true false (upAt portA 500 member)
       let x := s.ri.ports[portA]
       ComputeComes 50000 s ∧ s.ct.nodeState ≠ .config ∧ x.state = .up ∧ x.outstanding = none ∧ x.delay = none
       ∧ s.ri.ports[portB].state ≠ .up ∧ (after (.compute 50000 0) s).ri.own = [.probe portA 1]
       ∧ (let u := modPort portA (fun x => { x with delay := some 9 }) s
          s.ct.n.toNat % 256 ≠ 8 * s.straps.address.val ∧ (after (.compute 50000 0) u).ri.own = []
          ∧ (let w := { u with ct := { u.ct with n := 24 } }
             w.ct.n.toNat % 256 = 8 * w.straps.address.val ∧ (after (.compute 50000 0) w).ri.own = [.probe portA 1])))
    ∧ probing.ri.ports[portA].outstanding = some (7, 1000) ∧ (probing.ri.ports[portB].outstanding = none)
    ∧ (∀ l, probing.ri.ports[portA].outstanding ≠ some (8, l))
    ∧ 1000 + 100000 ≤ nowOf (advance 101000 probing) ∧ nowOf (advance 100999 probing) < 1000 + 100000 := by
  simp only [onPort_iff, ComputeComes]
  refine ⟨by decide +kernel, by decide +kernel, by decide +kernel, by decide +kernel, fun l h => ?_, by decide +kernel,
    by decide +kernel⟩
  have e : probing.ri.ports[portA].outstanding = some (7, 1000) := by decide +kernel
  rw [e] at h
  cases h

theorem witness_PortStates :
    (probing.ri.ports[portA].state ≠ .dark ∧ probing.ri.ports[portA].state ≠ .syncing)
    ∧ (member.ri.ports[portA].state = .dark ∧ member.ct.nodeState ≠ .config ∧ member.ct.nodeState ≠ .joining)
    ∧ (modPort portA (fun x => { x with state := .syncing }) member).ri.ports[portA].state = .syncing
    ∧ ((nodeIn .joining member).ct.nodeState = .joining ∧ State.reset.ct.nodeState = .config)
    ∧ (let s (t : Nat) (m : RingMode) : State := inMode m (upAt portA t (atTime 100050000 (raised true false member)))
       ComputeComes 100050000 (s 50000 .alone) ∧ (after (.compute 100050000 0) (s 50000 .alone)).ri.mode = .wrapB
       ∧ (after (.compute 100050000 0) (s 50001 .alone)).ri.mode = .alone
       ∧ (let h (t : Nat) : State := { s t .wrapA with ri := { (s t .wrapA).ri with healMark := true } }
          (after (.compute 100050000 0) (h 50000)).ri.mode = .through
          ∧ (after (.compute 100050000 0) (h 50001)).ri.mode = .wrapA)) := by
  simp only [ComputeComes]; decide +kernel

/-- R81: as a heal unwraps the node at 100 050 000, a frame that came by port B 1 µs before ends damaged, with the 124 bytes that
are in, where it leaves and where it is stored; one in its repeat delay is lost; none that began before is received. -/
theorem witness_RoutingChanged :
    (let s := inMode .wrapA (upAt portA 50000 (upAt portB 50000 (atTime 100050000 (raised true false member))))
     let f := { headOf 1 63 with length := 280, payload := .other 9 [] }
     let c (sd : Nat) : Copy := { port := portB, secondary := false, sd := sd, frame := f }
     let s := { s with ri := { s.ri with
       healMark := true, delayed := [c 100047584, c 100049000], store := [{ copy := c 100049000, sentAt := none }]
       primaryTx := some { frame := f, repeated := some (some portB, 100049000), damaged := false, startsAt := 100049480
                           endsAt := 100051896 } } }
     let t := after (.compute 100050000 0) s
     ComputeComes 100050000 s ∧ s.ri.mode = .wrapA ∧ t.ri.mode = .through ∧ t.ri.routedAt = 100050000
     ∧ t.ri.delayed = [c 100047584] ∧ t.ri.store.map (fun p => p.copy.damaged) = [some 124]
     ∧ t.ri.primaryTx.map (fun x => (x.damaged, x.endsAt)) = some (true, 100050488)
     ∧ OnPrimary t 100050000 ∧ ¬ OnPrimary t 100049999 ∧ ¬ RoutedSince t 100049999) := by
  simp only [onPrimary_iff, ComputeComes]; decide +kernel

theorem witness_FramesRepeated :
    (let f := frameOf (.beat (beatOf 1))
     f.payload = .beat (beatOf 1) ∧ f.payload.isLink = false ∧ f.source ≠ byte member.straps.address.val
     ∧ f.hop.toNat < 64 ∧ ({ f with hop := 63 } : Frame).hop.toNat < 64 ∧ 64 ≤ ({ f with hop := 64 } : Frame).hop.toNat
     ∧ f.length.toNat ≤ 1024 ∧ ({ f with length := 1024 } : Frame).length.toNat ≤ 1024
     ∧ 1024 < ({ f with length := 1025 } : Frame).length.toNat)
    ∧ ((frameOf (.probe 1)).payload.isLink = true ∧ (∀ b, (frameOf (.trip (burst5 1 0 1))).payload ≠ .beat b))
    ∧ ((inMode .through member).ri.mode = .through ∧ member.ri.mode ≠ .through)
    ∧ (let s := inMode .through (upAt portB 1000 member)
       OnPort s portB 1000 ∧ ¬ OnPort s portB 999 ∧ ¬ OnPrimary s 1000 ∧ OnPrimary member 1000
       ∧ (after (.secondaryPass 1000 (frameOf (.beat (beatOf 1)))) s).ri.delayed.length = 1
       ∧ (after (.secondaryPass 999 (frameOf (.beat (beatOf 1)))) s).ri.delayed = []) := by
  simp only [onPort_iff, onPrimary_iff]
  refine ⟨by decide +kernel, ⟨by decide +kernel, by simp [frameOf]⟩, by decide +kernel, by decide +kernel⟩

/-- A BEAT of full length. -/
def beatFrameOf (b : Beat) : Frame := { frameOf (.beat b) with length := 280 }

/-- R71, R74: node 3's slot lies 520 ns behind the start delimiter. A beat that came at 1 µs leaves at 1480 ns, its slot at 2 µs,
with the node state of that moment and the further bytes 0; one that comes stamped is found at 1584 ns; other bits of the beat
go on as they came (R64). -/
theorem witness_SlotsPassed :
    (let b := { beatOf 1 with flags := 5, slots := (beatOf 1).slots.set 3 { mark := 200, spare := 7 } }
     let s := after (.primaryRepeat 1000 (beatFrameOf b)) (inMode .through (upAt portA 1000 member))
     let s := nodeIn .isolated (after (.transmitterDecision 1480) s)
     let sent (t : Time) : Option (Bool × Slot × BitVec 7) := (after (.transmitterDecision t) s).ri.primaryTx.bind fun x =>
       match x.frame.payload with
       | .beat b => some (x.slotOwed, b.slots[(3 : NodeAddr)], b.flags)
       | _ => none
     WritesSlot s ∧ ¬ WritesSlot (nodeIn .passive s)
     ∧ sent 1999 = some (true, { mark := 200, spare := 7 }, 5)
     ∧ sent 2000 = some (false, { mark := 1, nodeState := .isolated, mode := .through }, 5))
    ∧ (let b := { beatOf 1 with slots := (beatOf 1).slots.set 3 { mark := 1, entries := 9 } }
       let s := after (.primaryRepeat 1000 (beatFrameOf b)) (inMode .through (upAt portA 1000 member))
       let found (t : Time) : Option (Bool × Bool) := (after (.probeFailed portA t) s).ri.beatIn.map fun y => (y.stamped, y.duplicate)
       found 1583 = some (true, false) ∧ found 1584 = some (false, true)) := by decide +kernel

/-- R190: bytes 6 to 15 of a header go out as they came in. -/
theorem test_header_rest_repeated :
    (let r : Vector Byte 10 := Vector.replicate 10 0xA5
     let f := { frameOf (.trip (burst5 1 0 1)) with rest := r }
     let s := after (.primaryRepeat 1000 f) (inMode .through (upAt portA 1000 member))
     ((after (.transmitterDecision 1480) s).ri.primaryTx.map fun x => (x.frame.rest, x.frame.hop)) = some (r, 1)) := by
  decide +kernel

/-- A copy of a frame whose start delimiter came at 1 µs. -/
def copyOf (p : Payload) (sec : Bool) : Copy := { port := portA, secondary := sec, sd := 1000, frame := frameOf p }

/-- A member that repeats one frame. -/
def repeating (c : Copy) (s : State) : State := { s with ri := { s.ri with delayed := [c] } }

/-- A member with one own frame of the RI waiting. -/
def ownWaits (f : OwnFrame) (s : State) : State := { s with ri := { s.ri with own := [f] } }

/-- What the RI sends just now. -/
def sendingTo (t : Nat) : Sending :=
  { frame := frameOf (.probe 1), repeated := none, damaged := false, startsAt := 0, endsAt := t }

/-- A queued burst. -/
def queued : QBurst :=
  { key := ⟨3, .input, 1⟩, cls := .stop, state := .active, refresh := false, cycle := 0, pos := none, count := 1 }

/-- A beat of the master, queued. -/
def queuedBeat : QueuedBeat :=
  { cycle := 1, start := 0, theta := 5, v := 1, lineState := .running, level := .none, period := .us250, heal := false }

/-- A member that sends view 0, its only segment ready. -/
def sendingView : State :=
  modView 0 (fun x => { x with
      state := .sending, current := some { buffer := 0, sequence := 1, repeatNo := 0, w := 2, h := 1, count := 1, next := 0 }
      prepared := some { toRead := [], ready := some [1, 2] } })
    { pool 0 twoBuffers member with ve := { member.ve with allowance := 100, budget := 2 } }

theorem witness_PrimaryTransmitterChooses :
    (let s := { member with ri := { member.ri with primaryTx := some (sendingTo 1000) } }
     s.ri.primaryTx = some (sendingTo 1000) ∧ nowOf (advance 1063 s) < 1000 + 64 ∧ 1000 + 64 ≤ nowOf (advance 1064 s))
    ∧ ({ member with tc := { member.tc with queue := [queued] } } : State).tc.queue = [queued] ∧ member.tc.queue = []
    ∧ (let s := inMode .through (repeating (copyOf (.beat (beatOf 1)) false) member)
       let p := fun c : Copy => !c.secondary || decide (s.ri.mode ≠ .through)
       waitingPlace p (purgeStore (advance 1480 s)) = none
       ∧ readyCopy p (purgeStore (advance 1480 s)) = some (copyOf (.beat (beatOf 1)) false)
       ∧ readyCopy p (purgeStore (advance 1479 s)) = none)
    ∧ (ownWaits (.beat queuedBeat) master).ri.own.find? (ownPrimary master.ri.mode) = some (.beat queuedBeat)
    ∧ (ownWaits (.probe portA 3) (inMode .wrapA member)).ri.own.find? (ownPrimary .wrapB) = some (.probe portA 3)
    ∧ (ownWaits (.reply portA 5 3 900) member).ri.own.find? (ownPrimary .wrapB) = some (.reply portA 5 3 900)
    ∧ (let s := sendingView
       s.ri.own.find? (ownPrimary s.ri.mode) = none ∧ (purgeStore (advance 0 s)).ri.store = []
       ∧ offeredView (purgeStore (advance 0 s)) = some 0
       ∧ s.ve.views[(0 : Fin 4)].current
          = some { buffer := 0, sequence := 1, repeatNo := 0, w := 2, h := 1, count := 1, next := 0 }
       ∧ readySegment s.ve.views[(0 : Fin 4)] = some [1, 2])
    ∧ offeredView (purgeStore (advance 0 member)) = none := by decide +kernel

/-- R132, R141, R153: the last segment of a view releases its buffer, whose fields go out from the state byte on; another segment
is prepared behind one that is not the last. -/
theorem witness_SegmentSent :
    (let s := modPool 0 (fun x => { x with buffers := x.buffers.map fun b => { b with readers := 1 } }) sendingView
     let t := after (.transmitterDecision 0) s
     t.ve.views[(0 : Fin 4)].state = .waiting ∧ t.ve.views[(0 : Fin 4)].last = some 1 ∧ t.ve.views[(0 : Fin 4)].framesSent = 1
     ∧ t.ve.views[(0 : Fin 4)].current = none ∧ t.pm.pools[(0 : Fin 6)].buffers.map (·.readers) = [0, 1]
     ∧ t.wc.queue.map (fun i => (i.addr, i.bytes.length, i.bytes.head?)) = [(0x1140D, 19, some 1)])
    ∧ (let s := modView 0 (fun x => { x with current := x.current.map fun f => { f with count := 2 } }) sendingView
       let t := after (.transmitterDecision 0) s
       (t.ve.views[(0 : Fin 4)].current.map (·.next)) = some 1 ∧ t.ve.views[(0 : Fin 4)].state = .sending
       ∧ (t.ve.views[(0 : Fin 4)].prepared.map (·.ready)) = some none ∧ t.ve.views[(0 : Fin 4)].framesSent = 0
       ∧ t.pm = s.pm ∧ t.wc = s.wc) := by decide +kernel

theorem witness_OtherFibresAndWaiting :
    (let s := { member with ri := { member.ri with linkTx := member.ri.linkTx.set 0 (some (sendingTo 1000)) } }
     s.ri.linkTx[portA] = some (sendingTo 1000) ∧ nowOf (advance 1063 s) < 1000 + 64 ∧ 1000 + 64 ≤ nowOf (advance 1064 s))
    ∧ (let s := inMode .through (repeating (copyOf (.trip (burst5 1 0 1)) true) member)
       s.ri.mode = .through ∧ waitingPlace (fun c => c.secondary) (purgeStore (advance 1480 s)) = none
       ∧ readyCopy (fun c => c.secondary) (purgeStore (advance 1480 s)) = some (copyOf (.trip (burst5 1 0 1)) true)
       ∧ readyCopy (fun c => c.secondary == true) (purgeStore (advance 1480 s)) = some (copyOf (.trip (burst5 1 0 1)) true)
       ∧ readyCopy (fun c => c.secondary == true) (purgeStore (advance 1479 s)) = none)
    ∧ (ownWaits (.probe portA 3) member).ri.own.find? (ownOnFibre .alone portA) = some (.probe portA 3)
    ∧ (ownWaits (.reply portA 5 3 900) member).ri.own.find? (ownOnFibre .alone portA) = some (.reply portA 5 3 900)
    ∧ member.ri.own.find? (ownOnFibre .alone portA) = none := by decide +kernel

/-- A whole frame of 20 bytes with its CRC. -/
def wholeFrame : List Byte :=
  let b := List.replicate 16 0
  b ++ le32 (crc32 b)

theorem witness_LineErrorsCounted :
    (OnPort probing portA 500 ∧ ¬ OnPort probing portA 499)
    ∧ (inMode .wrapA member).ri.mode = .wrapA
    ∧ (probing.ri.ports[portA].state = .up ∧ member.ri.ports[portA].state = .dark
      ∧ (modPort portA (fun x => { x with state := .syncing }) member).ri.ports[portA].state = .syncing)
    ∧ (wholeFrame.length = 20 ∧ wholeFrame.length = 20 + beValue (field wholeFrame 4 2)
      ∧ wholeFrame.drop (wholeFrame.length - 4) = le32 (crc32 (wholeFrame.take (wholeFrame.length - 4))))
    ∧ ((wholeFrame.set 0 1).drop 16 ≠ le32 (crc32 ((wholeFrame.set 0 1).take 16))
      ∧ (wholeFrame.take 19).length < 20 ∧ (wholeFrame ++ [0]).length ≠ 20 + beValue (field (wholeFrame ++ [0]) 4 2))
    ∧ (let s := { member with ri := { member.ri with
         primaryTx := some { sendingTo 2000 with repeated := some (portA, 1000) } } }
       s.ri.primaryTx = some { sendingTo 2000 with repeated := some (portA, (1000 : Time).toNat) }) := by
  simp only [onPort_iff]; decide +kernel

/-- R62, R64: in ALONE a damaged frame of the node's own loop ends the repetition of itself. -/
theorem witness_LoopFrameDamaged :
    (let rx : Reception := { bytes := wholeFrame.take 19, ending := .normal, invalidSymbol := false }
     let s := { member with ri := { member.ri with
       primaryTx := some { sendingTo 2000 with repeated := some (none, 1000) } } }
     s.ri.mode = .alone ∧ rx.bytes.length < 20
     ∧ (after (.damagedFrame none 1000 rx) s).ri.primaryTx.map (fun x => (x.damaged, x.endsAt)) = some (true, 168)
     ∧ (inMode .wrapA member).ri.mode ≠ .alone) := by decide +kernel

/-- R73, R83: the master's own BEAT that returns damaged is counted for the heal, and moves neither its run nor the slot copy; a
BEAT of another node is not counted. -/
theorem test_damaged_return_counts :
    (let rx (source : Byte) : Reception := { bytes := [1, 0, source, 63] ++ List.replicate 16 0, ending := .error, invalidSymbol := false }
     let t := after (.damagedFrame none 1000 (rx 0)) (healing 2)
     t.ri.heal = some { cell := 0, returns := 3 } ∧ t.ri.healRun = 2 ∧ t.ri.copy = master.ri.copy
     ∧ (after (.damagedFrame none 1000 (rx 4)) (healing 2)).ri.heal = some { cell := 0, returns := 2 }) := by decide +kernel

/-- A member whose stream 0 captures. -/
def capturing (f : Stream → Stream) (s : State) : State :=
  modStream 0 (fun x => f { x with state := .capturing, configured := true, set := { x.set with rowPixels := 64, webRows := 2 } }) s

/-- A trigger of frame 5, row 0, at 1 µs. -/
def trig : Trigger := { frame := 5, j := 0, pos := 0, time := 1000 }

/-- Frame 5 of a stream. -/
def frame5 (t : Target) (resolved : Nat) : CapFrame :=
  { id := 0, number := 5, boundary := 0, rows := 2048, resolved := resolved, target := t }

theorem witness_TriggersFireAndTimeOut :
    (let s := capturing (fun x => { x with plan := [trig] }) member
     s.cu[(0 : Fin 2)].plan = [trig] ∧ trig.time ≤ (nowOf (advance 1000 s) : Int)
     ∧ (nowOf (advance 999 s) : Int) < trig.time ∧ s.cu[(0 : Fin 2)].outstanding.length < 4)
    ∧ 4 ≤ (capturing (fun x => { x with outstanding := [trig, trig, trig, trig] }) member).cu[(0 : Fin 2)].outstanding.length
    ∧ (let s := capturing (fun x => { x with outstanding := [trig] }) member
       s.cu[(0 : Fin 2)].outstanding = [trig]
       ∧ trig.time + 1000 * (s.cu[(0 : Fin 2)].set.rowTimeout : Int) ≤ (nowOf (advance 101000 s) : Int)
       ∧ (nowOf (advance 100999 s) : Int) < trig.time + 1000 * (s.cu[(0 : Fin 2)].set.rowTimeout : Int)) := by
  decide +kernel

/-- R118, R119, R121: a row missing before any row has begun its frame is noted for it; in a frame begun it is resolved. -/
theorem witness_RowMissing :
    (let s (fs : List CapFrame) := capturing (fun x => { x with
       plan := [trig], outstanding := [trig, trig, trig, trig], frames := fs, ahead := [(5, 1), (6, 2)] }) member
     let x (fs : List CapFrame) := (after (.triggerFire 0 1000) (s fs)).cu[(0 : Fin 2)]
     let y (fs : List CapFrame) := (after (.rowTimeout 0 101000) (s fs)).cu[(0 : Fin 2)]
     (x []).ahead = [(5, 2), (6, 2)] ∧ (y []).ahead = [(5, 2), (6, 2)] ∧ (y []).outstanding.length = 3
     ∧ (x [frame5 .skip 2047]).frames = [] ∧ (x [frame5 .skip 2047]).ahead = [(5, 1), (6, 2)]
     ∧ (y [frame5 (.buffer 0) 3]).frames.map (fun f => (f.resolved, f.flags.gapped)) = [(4, true)]) := by
  decide +kernel

/-- The master at its compute event with a speed, its camera 0 with the next row given; the phase of its frames is 0. -/
def planning (v : Int) (r : Option NextRow) : State :=
  let s := capturing (fun x => { x with nextRow := r, set := { x.set with pitch := 512, minPeriod := 125 } }) (gearing 0 3 5)
  { s with ag := { s.ag with v := v } }

/-- R113, R115, R116, R117: streams whose next row is unset, ahead, due, not past E, and left behind by 2^20. -/
theorem witness_StreamPlanned :
    (let s := planning 0 none
     let t := after (.compute 50000 0) s
     ComputeComes 50000 s ∧ s.cu[(0 : Fin 2)].state ≠ .idle ∧ t.gu.formedNow = true ∧ t.gu.lastV = 0
     ∧ t.cu[(0 : Fin 2)].nextRow = some { frame := 0, j := 0, pos := 1048576 })
    ∧ (let r : NextRow := { frame := 0, j := 3, pos := 600 }
       let s := planning 500 (some r)
       let t := after (.compute 50000 0) s
       t.gu.thetaX = 400 ∧ t.gu.lastV = 500 ∧ t.gu.restarted = false ∧ (r.pos - (t.gu.thetaX + 500)).toInt ≤ 0
       ∧ r.j * s.cu[(0 : Fin 2)].set.pitch < 1048576 ∧ r.j + 1 < ceilDiv 1048576 512
       ∧ t.cu[(0 : Fin 2)].plan = [{ frame := 0, j := 3, pos := 600, time := 310000 }]
       ∧ t.cu[(0 : Fin 2)].nextRow = some { frame := 0, j := 4, pos := 1112 })
    ∧ (let s := planning 500 (some { frame := 0, j := 2047, pos := 901 })
       (after (.compute 50000 0) s).cu[(0 : Fin 2)].plan = [] ∧ ¬ 2047 + 1 < ceilDiv 1048576 512)
    ∧ (let s := planning 0 (some { frame := 0, j := 3, pos := 0xFFF00000 })
       let t := after (.compute 50000 0) s
       1048576 ≤ (t.gu.thetaX - 0xFFF00000).toInt ∧ t.cu[(0 : Fin 2)].counts.resyncs = 1
       ∧ t.cu[(0 : Fin 2)].state = .armed)
    ∧ (let s := planning 0 (some { frame := 0, j := 3, pos := 0xFFF00001 })
       (after (.compute 50000 0) s).cu[(0 : Fin 2)].counts.resyncs = 0) := by
  simp only [ComputeComes]; decide +kernel

/-- R113, R115, R116: four rows are due up to E = 3602; at 8 ns × 125 apart all have their time in the cycle, at 8 ns × 20000 two. -/
theorem witness_RowsPlanned :
    (let s := planning 2000 (some { frame := 0, j := 3, pos := 1700 })
     let t := after (.compute 50000 0) s
     ComputeComes 50000 s ∧ t.gu.thetaX = 1602 ∧ t.gu.lastV = 2000 ∧ t.gu.formedNow = true
     ∧ t.cu[(0 : Fin 2)].plan.map (·.time) = [222250, 286250, 350250, 414250] ∧ t.cu[(0 : Fin 2)].counts.missedRows = 0
     ∧ t.cu[(0 : Fin 2)].nextRow = some { frame := 0, j := 7, pos := 3748 })
    ∧ (let s := modStream 0 (fun x => { x with set := { x.set with minPeriod := 20000 } })
         (planning 2000 (some { frame := 0, j := 3, pos := 1700 }))
       let t := after (.compute 50000 0) s
       16 ≤ s.cu[(0 : Fin 2)].set.pitch ∧ s.cu[(0 : Fin 2)].set.pitch ≤ 65535
       ∧ t.cu[(0 : Fin 2)].plan.map (·.time) = [222250, 382250] ∧ t.cu[(0 : Fin 2)].counts.missedRows = 2
       ∧ t.cu[(0 : Fin 2)].nextRow = some { frame := 0, j := 7, pos := 3748 }) := by
  simp only [ComputeComes]; decide +kernel

/-- A row in reception. -/
def rowIn (received : Nat) : RowIn := { frame := 0, j := 0, received := received, sum := received, storedPixels := received }

theorem witness_RowsReceived :
    (State.reset.cu[(0 : Fin 2)].state = .idle ∧ State.reset.cu[(0 : Fin 2)].row = none)
    ∧ (let x := (capturing id member).cu[(0 : Fin 2)]
       x.state ≠ .idle ∧ x.row = none ∧ x.outstanding = [])
    ∧ (let x := (capturing (fun x => { x with outstanding := [trig], frames := [frame5 .waiting 0] }) member).cu[(0 : Fin 2)]
       x.outstanding = [trig] ∧ x.frames.getLast? = some (frame5 .waiting 0) ∧ (frame5 .waiting 0).number = trig.frame
       ∧ x.frames.find? (fun g => decide (g.number = trig.frame)) = some (frame5 .waiting 0))
    ∧ (let x := (capturing (fun x => { x with outstanding := [trig] }) member).cu[(0 : Fin 2)]
       x.outstanding = [trig] ∧ x.frames.getLast? = none)
    ∧ (let x := (capturing (fun x => { x with row := some (rowIn 63), frames := [frame5 .waiting 0] }) member).cu[(0 : Fin 2)]
       x.row = some (rowIn 63) ∧ (rowIn 63).received < x.set.rowPixels ∧ x.set.rowPixels ≤ (rowIn 64).received
       ∧ x.set.decimation = 1 ∧ (rowIn 63).overrun = false ∧ frameTarget x 0 = .waiting ∧ x.fifo.length < 8192)
    ∧ ((rowIn 0).received = 0 ∧ 0 < (rowIn 1).received ∧ (rowIn 1).sum / (rowIn 1).received < 2)
    ∧ ((capturing (fun x => { x with dark := 2 }) member).cu[(0 : Fin 2)].set.webRows ≤ 2
      ∧ (capturing (fun x => { x with dark := 2 }) member).cu[(0 : Fin 2)].broken = false
      ∧ (capturing (fun x => { x with broken := true, bright := 2 }) member).cu[(0 : Fin 2)].broken = true
      ∧ (capturing (fun x => { x with dark := 1 }) member).cu[(0 : Fin 2)].dark < 2) := by decide +kernel

/-- A pool of two FREE buffers whose hold bytes were last read clear. -/
def freeBuffers : Pool :=
  { configured := true
    buffers := [{ address := 0x40000, capacity := 4, stride := 64, lastHold := some 0 },
                { address := 0x50000, capacity := 4, stride := 64, lastHold := some 0 }] }

theorem freeBuffers_chosen : ChosenTarget freeBuffers (holdsLastRead freeBuffers) 0 :=
  .inl ⟨_, ⟨rfl, rfl, fun _ h => nomatch h⟩, rfl, fun c _ _ _ => Nat.zero_le c⟩

/-- The part with its window closed. -/
def closedWindow (s : State) : State := { s with wc := { s.wc with winbase := 0 } }

/-- R121, R135, R143: the first row of a frame without a pool, with the hold bytes to be read, and with the window closed. -/
theorem witness_FrameBegins :
    (let s := capturing (fun x => { x with outstanding := [trig], nextId := 7 }) member
     let t := after (.rowBegin 0) s
     s.cu[(0 : Fin 2)].outstanding = [trig] ∧ s.cu[(0 : Fin 2)].frames.getLast? = none
     ∧ s.pm.pools[capturePool 0].configured = false
     ∧ (begunFrame s.cu[(0 : Fin 2)] trig).resolved < (begunFrame s.cu[(0 : Fin 2)] trig).rows
     ∧ t.cu[(0 : Fin 2)].frames.map (fun f => (f.id, f.number, f.target)) = [(7, 5, .skip)]
     ∧ t.cu[(0 : Fin 2)].row = some { frame := 7, j := 0 }
     ∧ (let t := after (.rowBegin 0) (pool 0 freeBuffers s)
        windowOn (pool 0 freeBuffers s) = true ∧ t.cu[(0 : Fin 2)].frames.map (·.target) = [.waiting]
        ∧ t.pm.pools[capturePool 0].request = some { repeatNo := 0, width := 64, firstPos := 0, sequence := none }
        ∧ t.wc.queue.map (·.addr) = [0x1140C, 0x1142C])
     ∧ (let t := after (.rowBegin 0) (closedWindow (pool 0 freeBuffers s))
        windowOn (closedWindow (pool 0 freeBuffers s)) = false ∧ t.cu[(0 : Fin 2)].frames.map (·.target) = [.buffer 0]
        ∧ t.pm.pools[capturePool 0].filling = some 0 ∧ t.pm.pools[capturePool 0].nextSeq = 2
        ∧ (after (.rowBegin 0) (closedWindow (pool 0 { freeBuffers with buffers := [] } s))).pm.pools[capturePool 0].skipped
          = 1)) := by decide +kernel

/-- Camera 0 in row `j` of its frame 0, `got` of 64 pixels in, the frame's target as given, its buffer of 4 rows of 64 bytes. -/
def receiving (target : Target) (j got : Nat) : State :=
  pool 0 twoBuffers (capturing (fun x => { x with
    row := some { rowIn got with j := j }, frames := [frame5 target 0] }) member)

/-- R122, R123: a pixel of a row whose frame has its buffer: stored, beyond the rows, beyond the stride, without room. -/
theorem witness_PixelsStored :
    (let x (s : State) := (after (.cameraPixel 0 9) s).cu[(0 : Fin 2)]
     let s := receiving (.buffer 0) 1 63
     let o : FifoByte := { unit := 0, frame := 9, row := 0, col := 0, addr := none, byte := 0 }
     frameTarget s.cu[(0 : Fin 2)] 0 = .buffer 0 ∧ (bufferAt s (capturePool 0) 0).isSome
     ∧ (x s).fifo.map (fun b => (b.addr, b.byte)) = [(some (0x40000 + 127), 9)]
     ∧ (x (receiving (.buffer 0) 4 63)).fifo = [] ∧ (x (receiving (.buffer 0) 4 63)).frames.map (·.flags.clipped) = [false]
     ∧ (x (modPool 0 (fun p => { p with buffers := p.buffers.map fun b => { b with stride := 63 } }) s)).frames.map
        (·.flags.clipped) = [true]
     ∧ (x (modStream 0 (fun y => { y with fifo := List.replicate 8192 o }) s)).counts.fifoOverruns = 1) := by decide +kernel

/-- R122, R124: the end of a row: padded, stored, beyond the rows, waiting for the target, and without a buffer. -/
theorem witness_RowEnds :
    (let x (s : State) := (after (.rowEnd 0) s).cu[(0 : Fin 2)]
     let f (s : State) := (x s).frames.map fun f => (f.resolved, f.stored)
     let g (s : State) := (x s).frames.map fun f => (f.flags.shortRow, f.flags.clipped)
     f (receiving (.buffer 0) 1 63) = [(1, 1)] ∧ g (receiving (.buffer 0) 1 63) = [(true, false)]
     ∧ (x (receiving (.buffer 0) 1 63)).fifo.map (fun b => (b.addr, b.byte)) = [(some (0x40000 + 127), 0)]
     ∧ f (receiving (.buffer 0) 4 64) = [(1, 0)] ∧ g (receiving (.buffer 0) 4 64) = [(false, true)]
     ∧ (x (receiving (.buffer 0) 4 64)).counts.clippedRows = 1
     ∧ (x (receiving .waiting 1 64)).frames.map (·.waitingRows) = [[1]]
     ∧ (x (receiving .skip 1 64)).counts.discarded = 1) := by decide +kernel

/-- The record behind pool 0 when buffer 0 fills and buffer 1 is FREE, with a request outstanding. -/
def requesting (filling : Option Nat) : State :=
  pool 0 { twoBuffers with filling := filling, request := some { repeatNo := 1, width := 64, firstPos := 0, sequence := none } }
    member

theorem witness_PoolEvents :
    ((requesting none).pm.pools[(0 : Fin 6)].request.isSome ∧ landed (requesting none) (.hold 0) = true
      ∧ (requesting none).pm.work = [] ∧ member.pm.pools[(0 : Fin 6)].request = none)
    ∧ ChosenTarget (requesting (some 0)).pm.pools[(0 : Fin 6)] [0, 0] 1
    ∧ (let s := pool 0 twoBuffers (capturing (fun x => { x with frames := [frame5 (.buffer 0) 2048] }) member)
       s.cu[(0 : Fin 2)].frames = [frame5 (.buffer 0) 2048] ∧ s.pm.pools[(0 : Fin 6)].filling = some 0
       ∧ 0 < s.pm.pools[(0 : Fin 6)].buffers.length
       ∧ (frame5 (.buffer 0) 2048).rows ≤ (frame5 (.buffer 0) 2048).resolved
       ∧ s.cu[(0 : Fin 2)].flight = [] ∧ s.cu[(0 : Fin 2)].fifo = [] ∧ windowOn s = true
       ∧ s.pm.pools[(0 : Fin 6)].pendingTarget = none ∧ member.pm.pools[(0 : Fin 6)].filling = none
       ∧ (let w : PendingTarget := { buffer := 1, repeatNo := 2, width := 64, firstPos := 9, sequence := 4 }
          let u := modPool 0 (fun x => { x with pendingTarget := some w }) s
          u.pm.pools[(0 : Fin 6)].pendingTarget = some w ∧ w.buffer < u.pm.pools[(0 : Fin 6)].buffers.length ∧ w.buffer ≠ 0
          ∧ (after (.frameCompletion 0) u).pm.pools[(0 : Fin 6)].filling = some 1))
    ∧ (let f : RecvFrame := { id := 0, sequence := 1, repeatNo := 0, w := 4, target := .buffer 0, closed := true }
       let s := pool 2 twoBuffers (modBinding 0 (fun x => { x with frames := [f] }) member)
       s.ve.bindings[(0 : Fin 4)].frames = [f] ∧ s.pm.pools[(2 : Fin 6)].filling = some 0
       ∧ (s.pm.pools[(2 : Fin 6)].buffers[0]?).isSome ∧ s.ve.flight = [] ∧ s.ve.ringIn = [])
    ∧ (let a : PoolWrite := { pool := 0, item := .change 1 [1] .full }
       let b : PoolWrite := { pool := 0, item := .header [2] }
       let c : PoolWrite := { pool := 1, item := .change 0 [3] .free }
       let s := { member with pm := { member.pm with work := [a, b, c, b] } }
       s.pm.work = ⟨0, .change (1 : Fin 8).val [1] .full, false⟩ :: [b, c, b] ∧ windowOn s = true
       ∧ landed s (.desc 0 1) = true ∧ (after (.descriptorStateWrite 0 1) s).pm.work = [c, b]
       ∧ (after (.descriptorStateWrite 0 1) s).wc.queue.map (·.bytes) = [[2], [2], [3], []]
       ∧ PoolWrite.isChangeOf 0 1 c = none ∧ (∀ w ∈ [a, b, c, b], w.rewrite = false)) := by
  refine ⟨by decide +kernel, .inl ⟨{ address := 0x50000, capacity := 4, stride := 64 }, ⟨rfl, rfl, fun _ h => nomatch h⟩, rfl,
    fun c z h hz => ?_⟩, by decide +kernel, by decide +kernel, by decide +kernel⟩
  obtain ⟨hb, hh, -⟩ := h
  match c with
  | 0 => cases (Option.some.inj hb).symm; cases hz
  | c + 1 => omega

/-- R137, R138: a frame that is not complete stays; R123, R136: the frame that waits for its target gets it, and its bytes their
addresses, or is skipped. -/
theorem witness_TargetComes :
    (let s := pool 0 twoBuffers (capturing (fun x => { x with frames := [frame5 (.buffer 0) 2047] }) member)
     s.cu[(0 : Fin 2)].frames.find? (fun g => decide (g.target = .buffer 0)) = some (frame5 (.buffer 0) 2047)
     ∧ after (.frameCompletion 0) s = s)
    ∧ (let f : RecvFrame := { id := 0, sequence := 1, repeatNo := 0, w := 4, target := .buffer 0 }
       let s := pool 2 twoBuffers (modBinding 0 (fun x => { x with frames := [f] }) member)
       f.closed = false ∧ after (.frameCompletion 2) s = s)
    ∧ (let b (r c : Nat) : FifoByte := { unit := 0, frame := 0, row := r, col := c, addr := none, byte := 9 }
       let f := { frame5 .waiting 6 with waitingRows := [0, 4] }
       let s := capturing (fun x => { x with frames := [f], fifo := [b 0 1, b 4 0] }) (requesting none)
       let t := after (.fillTargetChoice 0 [0, 0]) s
       let u := after (.fillTargetChoice 0 [1, 1]) s
       s.cu[(0 : Fin 2)].frames.find? (fun g => decide (g.target = .waiting)) = some f
       ∧ (s.cu[(0 : Fin 2)].frames.map (·.id)).Nodup
       ∧ t.cu[(0 : Fin 2)].fifo = [{ b 0 1 with addr := some 0x50001 }]
       ∧ t.cu[(0 : Fin 2)].frames.map (fun g => (g.target, g.stored, g.flags.clipped)) = [(.buffer 1, 1, true)]
       ∧ t.pm.pools[(0 : Fin 6)].filling = some 1 ∧ t.wc.queue.head?.map (·.addr) = some 0x1142E
       ∧ u.cu[(0 : Fin 2)].fifo = [] ∧ u.cu[(0 : Fin 2)].frames.map (·.target) = [.skip]
       ∧ u.cu[(0 : Fin 2)].counts.discarded = 2 ∧ u.pm.pools[(0 : Fin 6)].skipped = 1) := by decide +kernel

/-- R136, R138, R139: a frame completes while the next frame of its unit goes on in the pending target, with writes of others
unreported. -/
theorem witness_CompletionAmongFrames :
    (let w : PendingTarget := { buffer := 1, repeatNo := 2, width := 64, firstPos := 9, sequence := 4 }
     let next := { frame5 (.buffer 1) 3 with id := 1, number := 6 }
     let s := pool 0 { twoBuffers with pendingTarget := some w } (capturing (fun x => { x with
       frames := [frame5 (.buffer 0) 2048, next], flight := [{ unit := 0, frame := 1, addr := 0x50000, bytes := [7] }] }) member)
     let t := after (.frameCompletion 0) s
     s.cu[(0 : Fin 2)].frames.find? (fun g => decide (g.target = .buffer 0)) = some (frame5 (.buffer 0) 2048)
     ∧ (∀ w ∈ s.cu[(0 : Fin 2)].flight, ¬ (w.unit = 0 ∧ w.frame = 0)) ∧ next.resolved < next.rows
     ∧ t.cu[(0 : Fin 2)].frames = [next] ∧ t.pm.pools[(0 : Fin 6)].filling = some 1
     ∧ t.pm.pools[(0 : Fin 6)].buffers.map (fun b => (b.state, b.sequence)) = [(.full, 0), (.filling, 4)])
    ∧ (let w : PendingTarget := { buffer := 1, repeatNo := 2, width := 4, firstPos := 0, sequence := 4 }
       let f : RecvFrame := { id := 0, sequence := 1, repeatNo := 0, w := 4, extent := 6, target := .buffer 0, closed := true }
       let next := { f with id := 1, sequence := 4, target := .buffer 1, closed := false }
       let u := modBinding 0 (fun x => { x with frames := [f, next] }) member
       let s := pool 2 { twoBuffers with pendingTarget := some w }
         { u with ve := { u.ve with flight := [{ unit := 1, frame := 0, addr := 0x60000, bytes := [7] }] } }
       let t := after (.frameCompletion 2) s
       s.ve.bindings[(0 : Fin 4)].frames.find? (fun g => decide (g.target = .buffer 0)) = some f
       ∧ (∀ w ∈ s.ve.flight, ¬ (w.unit = 0 ∧ w.frame = 0)) ∧ t.ve.bindings[(0 : Fin 4)].frames = [next]
       ∧ t.pm.pools[(2 : Fin 6)].buffers.map (fun b => (b.state, b.rows)) = [(.full, 2), (.filling, 0)]) := by
  decide +kernel

/-- R139: the frame of the pending target, with nothing left to write, completes at the event at which its buffer starts to fill; R186:
the read behind the last write of frame 0 reports what was granted before it, and the write behind it stays on its way. -/
theorem witness_PendingCompletesToo :
    (let w : PendingTarget := { buffer := 1, repeatNo := 2, width := 64, firstPos := 9, sequence := 4 }
     let next := { frame5 (.buffer 1) 2048 with id := 1, number := 6 }
     let s := pool 0 { twoBuffers with pendingTarget := some w } (capturing (fun x => { x with
       frames := [frame5 (.buffer 0) 2048, next]
       flight := [{ unit := 0, frame := 0, addr := 0x40000, bytes := [7], asked := 2 },
                  { unit := 0, frame := 3, addr := 0x50000, bytes := [8], asked := 1 }] }) member)
     let t := after (.frameCompletion 0) s
     ¬ CaptureWaits s 0 (frame5 (.buffer 0) 2048) ∧ ¬ CaptureWaits s 0 next ∧ next.id ≠ (frame5 (.buffer 0) 2048).id
     ∧ s.cu[(0 : Fin 2)].frames.find? (fun g => decide (g.target = .buffer w.buffer)) = some next
     ∧ t.cu[(0 : Fin 2)].frames = [] ∧ t.cu[(0 : Fin 2)].counts.completed = 2 ∧ t.pm.pools[(0 : Fin 6)].filling = none
     ∧ t.pm.pools[(0 : Fin 6)].buffers.map (·.state) = [.full, .full] ∧ t.pm.pools[(0 : Fin 6)].completed = 2
     ∧ t.cu[(0 : Fin 2)].flight.map (·.frame) = [3] ∧ t.mem.map (·.1) = [0x40000])
    ∧ (let w : PendingTarget := { buffer := 1, repeatNo := 2, width := 4, firstPos := 0, sequence := 4 }
       let f : RecvFrame := { id := 0, sequence := 1, repeatNo := 0, w := 4, extent := 6, target := .buffer 0, closed := true }
       let next := { f with id := 1, sequence := 4, extent := 9, target := .buffer 1 }
       let u := modBinding 0 (fun x => { x with frames := [f, next] }) member
       let s := pool 2 { twoBuffers with pendingTarget := some w }
         { u with ve := { u.ve with flight := [{ unit := 0, frame := 0, addr := 0x60000, bytes := [7], asked := 1 }] } }
       let t := after (.frameCompletion 2) s
       ¬ RecvWaits s 0 f ∧ ¬ RecvWaits s 0 next ∧ t.ve.bindings[(0 : Fin 4)].frames = []
       ∧ t.pm.pools[(2 : Fin 6)].buffers.map (fun b => (b.state, b.rows)) = [(.full, 2), (.full, 3)]
       ∧ t.ve.flight = [] ∧ t.mem.map (·.1) = [0x60000]) := by
  decide +kernel

/-- A member whose receive pool 2 is bound to view 0 of node 1. -/
def bound (f : Binding → Binding) : State := modBinding 0 (fun x => f { x with source := some (1, 0), timeout := 3 }) member

/-- The frame of an OPEN assembly. -/
def openFrame : RecvFrame := { id := 0, sequence := 1, repeatNo := 0, w := 4 }

/-- A FULL buffer of 4 by 4 pixels with the sequence 1. -/
def fullBuffer : Buffer :=
  { address := 0x40000, capacity := 4, stride := 64, state := .full, sequence := 1, rows := 4, width := 4 }

/-- The part with one FULL buffer of two in pool 0. -/
def filledPool : Pool :=
  { configured := true, buffers := [fullBuffer, { address := 0x50000, capacity := 4, stride := 64 }] }

def filled (s : State) : State := pool 0 filledPool s

theorem filled_newest (s : State) : NewestEligible (filled s) 0 false none 0 fullBuffer := by
  have e : (filled s).pm.pools[(0 : Fin 6)] = filledPool := by simp [filled, pool, modPool, modV]
  unfold NewestEligible
  rw [e]
  refine ⟨rfl, ⟨rfl, rfl, ?_, .inr rfl, ?_⟩, fun c z hc h => ?_⟩
  · intro w h; cases h
  · intro l h; cases h
  obtain ⟨hb, hf, -⟩ := h
  match c with
  | 0 => exact absurd rfl hc
  | 1 => cases (Option.some.inj hb).symm; cases hf
  | c + 2 => cases hb

theorem witness_SegmentsFormedAndTaken :
    (let s := modView 0 (fun x => { x with prepared := some { toRead := [], zeroed := [0] } }) sendingView
     s.ve.views[(0 : Fin 4)].current.isSome ∧ s.ve.views[(0 : Fin 4)].prepared = some { toRead := [], zeroed := [0] }
     ∧ sendingView.ve.views[(0 : Fin 4)].prepared = some { toRead := [], ready := some [1, 2] }
     ∧ member.ve.views[(0 : Fin 4)].current = none)
    ∧ ((after .nodeReset member).wc.resetting = true ∧ member.wc.resetting = false
      ∧ (∀ b : Fin 4, member.ve.bindings[b].source = none)
      ∧ Passes member 1000 (delivered 1 goodSegment).toFrameHead ∧ (headOf 1 3).dest = byte member.straps.address.val
      ∧ (headOf 1 4).dest ≠ byte member.straps.address.val ∧ (headOf 1 4).dest ≠ 63)
    ∧ (bindingFor (bound id) goodSegment = some 0 ∧ invalidHeader (bound id).ve.bindings[(0 : Fin 4)] goodSegment = false
      ∧ invalidHeader (bound id).ve.bindings[(0 : Fin 4)] { goodSegment with index := 1 } = true
      ∧ (bound id).ve.bindings[(0 : Fin 4)].last ≠ some goodSegment.sequence
      ∧ (bound id).pm.pools[recvPool 0].configured = false)
    ∧ (let x := (bound fun x => { x with last := some 1, asm := .skipping, w := 4, h := 4, count := 1 }).ve.bindings[(0 : Fin 4)]
       x.last = some goodSegment.sequence ∧ x.asm = .skipping ∧ invalidHeader x goodSegment = false)
    ∧ (let x := (bound fun x => { x with last := some 1, asm := .openA, w := 4, h := 4, count := 1, frames := [openFrame] }
         ).ve.bindings[(0 : Fin 4)]
       x.asm = .openA ∧ x.next ≤ goodSegment.index.toNat ∧ invalidHeader x goodSegment = false
       ∧ x.frames.getLast? = some openFrame ∧ openFrame.target = .waiting ∧ openFrame.id ≠ 1)
    ∧ (let s := pool 2 twoBuffers (bound id)
       let p := s.pm.pools[recvPool 0]
       p.configured = true ∧ p.pendingTarget = none ∧ p.request = none ∧ windowOn s = true
       ∧ (after (.segmentDelivery (delivered 1 goodSegment)) s).ve.ringIn.length = 16)
    ∧ (bound fun x => { x with frames := [openFrame] }).ve.bindings[(0 : Fin 4)].frames ≠ []
    ∧ (let x := (bound fun x => { x with asm := .openA, idle := 3 }).ve.bindings[(0 : Fin 4)]
       x.asm = .openA ∧ x.timeout ≤ x.idle)
    ∧ (bound fun x => { x with asm := .openA, idle := 2 }).ve.bindings[(0 : Fin 4)].idle < 3 := by
  simp only [Passes, onPrimary_iff]; decide +kernel

/-- R137, R157, R158: a segment of a frame whose buffer is known, 8 bytes of room being left; a new frame while the window is
closed, with a buffer and without; the offset and length of the frame's only segment are 0 and 16. -/
theorem witness_SegmentPlaces :
    (let y : FifoByte := { unit := 1, frame := 0, row := 0, col := 0, addr := none, byte := 0 }
     let u := pool 2 twoBuffers (bound fun x => { x with
       last := some 1, asm := .openA, w := 4, h := 4, count := 1, frames := [{ openFrame with target := .buffer 0 }] })
     let t (n : Nat) := after (.segmentDelivery (delivered 1 goodSegment))
       { u with ve := { u.ve with ringIn := List.replicate n y } }
     (t 2040).ve.ringIn.length = 2048 ∧ (t 2040).ve.bindings[(0 : Fin 4)].frames.map (·.flags.overrun) = [true]
     ∧ (t 2032).ve.bindings[(0 : Fin 4)].frames.map (·.flags.overrun) = [false]
     ∧ (t 0).ve.ringIn.map (·.addr) = (List.range 16).map (fun k =>
         some (0x40000 + BitVec.ofNat 64 (k / 4 * 64 + k % 4))))
    ∧ (let s := closedWindow (pool 2 freeBuffers (bound id))
       let t := after (.segmentDelivery (delivered 1 goodSegment)) s
       windowOn s = false ∧ s.pm.pools[recvPool 0].configured = true ∧ s.ve.ringIn = []
       ∧ s.ve.bindings[(0 : Fin 4)].last ≠ some goodSegment.sequence ∧ t.pm.pools[recvPool 0].filling = some 0
       ∧ t.ve.bindings[(0 : Fin 4)].frames.map (fun f => (f.target, f.closed)) = [(.buffer 0, true)]
       ∧ t.ve.ringIn.map (·.addr) = (List.range 16).map (fun k => some (0x40000 + BitVec.ofNat 64 (k / 4 * 64 + k % 4)))
       ∧ (let t := after (.segmentDelivery (delivered 1 goodSegment))
            (closedWindow (pool 2 { freeBuffers with buffers := [] } (bound id)))
          t.pm.pools[recvPool 0].skipped = 1 ∧ t.ve.bindings[(0 : Fin 4)].frames = [] ∧ t.ve.ringIn = [])) := by
  decide +kernel

/-- R140, R149, R159: a WAITING view with a frame to send and with none, and an assembly at its timeout at a compute event. -/
theorem witness_ViewStarts :
    (let s := filled (raised true false (modView 0 (fun x => { x with state := .waiting, configured := true }) member))
     ComputeComes 50000 s ∧ s.ve.views[(0 : Fin 4)].state = .waiting ∧ NewestEligible s 0 false none 0 fullBuffer
     ∧ (after (.compute 50000 0) s).ve.views[(0 : Fin 4)].state = .sending
     ∧ (after (.compute 50000 0) s).ct.nodeState ≠ .config)
    ∧ NoneEligible member 0 false none
    ∧ (let s := raised true false (bound fun x => { x with asm := .openA, idle := 2, frames := [openFrame] })
       let x := s.ve.bindings[(0 : Fin 4)]
       x.asm = .openA ∧ x.timeout ≤ x.idle + 1 ∧ (after (.compute 50000 0) s).ve.bindings[(0 : Fin 4)].asm = .closed) := by
  refine ⟨⟨?_, by decide +kernel, filled_newest _, by decide +kernel, by decide +kernel⟩, .inl rfl, by decide +kernel⟩
  unfold ComputeComes; decide +kernel

/-- The part with its screen ENABLED at a raster position. -/
def screenAt (line p : Nat) (f : Screen → Screen) : State :=
  { member with sc := f { member.sc with enabled := true, position := some (line, p) } }

/-- The source byte of pane 0's first pixel. -/
def need0 : Need := { line := 0, pane := 0, row := 0, col := 0 }

/-- Pane 0 covering the screen from a host buffer. -/
def pane0 (s : State) : State :=
  modPane 0 (fun x => { x with inForce := { x.inForce with enable := true, host := true }
                               source := some { address := 0x60000, stride := 320, width := 320, rows := 240 } }) s

theorem witness_ScreenFrames :
    (State.reset.sc.enabled = false ∧ (screenAt 500 0 id).sc.enabled = true)
    ∧ (let s := screenAt 500 0 id
       s.sc.position = some (s.sc.height + s.sc.vFront + s.sc.vSync + s.sc.vBack, 0)
       ∧ (screenAt 499 799 id).sc.position ≠ some (500, 0))
    ∧ (let t := after .screenFrameStart (pane0 (screenAt 500 0 id))
       t.sc.panes[(0 : Fin 4)].inForce.enable = true ∧ t.sc.panes[(0 : Fin 4)].inForce.host = true
       ∧ t.sc.panes[(1 : Fin 4)].inForce.enable = false)
    ∧ (let f (s : State) := modPane 0 (fun x => { x with inForce := { x.inForce with enable := true } }) s
       let s := filled (f (screenAt 500 0 id))
       NewestEligible s 0 false none 0 fullBuffer
       ∧ (after .screenFrameStart s).sc.panes[(0 : Fin 4)].held = some (0, 0)
       ∧ NoneEligible (f (screenAt 500 0 id)) 0 false none)
    ∧ ((modLoad 0 (fun x => { x with state := .complete, cell := some 5 }) member).sc.loads[(0 : Fin 2)].state = .complete
      ∧ (modPane 0 (fun x => { x with flip := some 4 }) member).sc.panes[(0 : Fin 4)].flip = some 4
      ∧ member.sc.loads[(1 : Fin 2)].state ≠ .complete)
    ∧ (let s := screenAt 496 719 id
       s.sc.vSync + s.sc.vBack + s.sc.height = 496 + 1 ∧ 719 < s.sc.hSync + s.sc.hBack + s.sc.width + 1
       ∧ (after .activeEnd s).sc.frames = 0 ∧ (after .activeEnd (screenAt 496 784 id)).sc.frames = 1) := by
  exact ⟨by decide +kernel, by decide +kernel, by decide +kernel,
    ⟨filled_newest _, by decide +kernel, .inl rfl⟩, by decide +kernel, by decide +kernel⟩

theorem witness_PixelsAndReads :
    (let s := pane0 (screenAt 17 144 fun x => { x with fifo := [(need0, 9)] })
     s.sc.enabled = true ∧ s.sc.position = some (17, 144)
     ∧ (s.sc.hSync + s.sc.hBack ≤ 144 ∧ 144 < s.sc.hSync + s.sc.hBack + s.sc.width ∧ s.sc.vSync + s.sc.vBack ≤ 17)
     ∧ needAt s.sc 0 0 = some need0 ∧ fifoByte s.sc need0 = some 9 ∧ 144 + 1 < s.sc.width + s.sc.hFront + s.sc.hSync + s.sc.hBack)
    ∧ (143 < (screenAt 17 143 id).sc.hSync + (screenAt 17 143 id).sc.hBack ∧ needAt (screenAt 17 144 id).sc 0 0 = none
      ∧ fifoByte (pane0 (screenAt 17 144 id)).sc need0 = none)
    ∧ ((screenAt 500 0 id).sc.height + 3 + 4 + 13 ≤ 500 ∧ member.sc.position = none)
    ∧ (screenAt 0 0 fun x => { x with reads := [[need0]] }).sc.reads = [[need0]]
    ∧ (let s := modLoad 0 (fun x => { x with state := .reading, issued := 768 }) member
       s.sc.loads[(0 : Fin 2)].state = .reading ∧ 768 ≤ s.sc.loads[(0 : Fin 2)].issued
       ∧ s.sc.loads[(0 : Fin 2)].busError = false ∧ s.sc.enabled = false)
    ∧ ((modLoad 0 (fun x => { x with state := .reading, issued := 767 }) member).sc.loads[(0 : Fin 2)].issued < 768
      ∧ (modLoad 0 (fun x => { x with busError := true }) member).sc.loads[(0 : Fin 2)].busError = true
      ∧ (screenAt 0 0 id).sc.enabled = true) := by decide +kernel

/-- R173: a byte stays in the FIFO while a later pixel of its line needs it, and leaves it with the last one; R170: the cell of a
load that ends. -/
theorem witness_BytesKeptAndCellsEnded :
    (let z (s : State) := modPane 0 (fun x => { x with inForce := { x.inForce with zoom := 2 } }) s
     let s (p : Nat) := z (pane0 (screenAt 17 p fun x => { x with fifo := [(need0, 9)] }))
     needAt (s 144).sc 1 0 = some need0 ∧ 0 < (s 144).sc.panes[(0 : Fin 4)].inForce.zoom
     ∧ needAt (s 145).sc 2 0 ≠ some need0
     ∧ (after .screenPixel (s 144)).sc.fifo = [(need0, 9)] ∧ (after .screenPixel (s 145)).sc.fifo = [])
    ∧ (let s (bad on : Bool) := held { cmd := .loadPalette ⟨0, 0⟩, tag := 1 }
         (modLoad 0 (fun x => { x with state := .reading, issued := 768, cell := some 0, busError := bad })
           { member with sc := { member.sc with enabled := on } })
       let r (bad on : Bool) := ((after (.paletteReadDone 0 []) (s bad on)).wc.records[(0 : Fin 16)].bind (·.result)).map (·.code)
       (s true false).sc.loads[(0 : Fin 2)].cell = some 0
       ∧ r true false = some .cancelled ∧ r false false = some .ok ∧ r true true = some .cancelled ∧ r false true = none) := by
  decide +kernel

/-- A member with one byte of camera 0 waiting for its write. -/
def writing : State :=
  pool 0 twoBuffers (capturing (fun x => { x with
    frames := [frame5 (.buffer 0) 2048]
    fifo := [{ unit := 0, frame := 0, row := 0, col := 0, addr := some 0x40000, byte := 7 }] }) member)

/-- A member with one window transaction waiting. -/
def waiting : State :=
  { member with wc := { member.wc with queue := [writeItem member .plain true 0 [1]] } }

/-- A granted write of camera 0. -/
def granted : DataWrite := { unit := 0, frame := 0, addr := 0x40000, bytes := [7] }

theorem witness_GrantsInOrder :
    (∀ r : Requester, levelOf State.reset r = .quiet)
    ∧ (levelOf waiting .window = .high
      ∧ (∀ q ∈ [Requester.screen, .camera0, .camera1, .ringIn], levelOf waiting q ≠ .high) ∧ waiting.mp.camerasFirst = false)
    ∧ (levelOf writing .camera0 = .low ∧ cameraWritable writing 0 = true
      ∧ (∀ q ∈ [Requester.screen], levelOf writing q ≠ .low)
      ∧ (after .grant writing).cu[(0 : Fin 2)].flight = [granted] ∧ (after .grant writing).mem = [])
    ∧ (let s := after .grant writing
       let t := after .grant s
       levelOf s .camera0 = .low ∧ ¬ CameraReady s 0 ∧ CameraReportOwed s 0
       ∧ t.cu[(0 : Fin 2)].flight = [{ granted with asked := 1 }] ∧ t.mem = [] ∧ levelOf t .camera0 = .quiet
       ∧ (after (.frameCompletion 0) t).mem.length = 1 ∧ (after (.frameCompletion 0) t).cu[(0 : Fin 2)].flight = []) := by
  refine ⟨fun r => ?_, by decide +kernel, by decide +kernel, by decide +kernel⟩
  cases r <;> decide +kernel

/-- R185: the marks at their boundaries: the camera high mark at 64 units and the low mark at 8, the screen at its marks of 8 and 32
units, ring-in at 1024 bytes, and the window during a publish's writes and without them. -/
theorem witness_LevelsFormed :
    (let byte (unit : Nat) : FifoByte := { unit := unit, frame := 0, row := 0, col := 0, addr := some 0x40000, byte := 7 }
     let s (n : Nat) := pool 0 twoBuffers (capturing (fun x => { x with
       frames := [frame5 (.buffer 0) 3], fifo := List.replicate n (byte 0) }) member)
     let r (n : Nat) (closed : Bool) (target : Target) : State :=
       let u := pool 2 twoBuffers (modBinding 0 (fun x => { x with
         frames := [{ id := 0, sequence := 1, repeatNo := 0, w := 4, target := target, closed := closed }] }) member)
       { u with ve := { u.ve with ringIn := List.replicate n (byte 0) } }
     CameraReady (s 1) 0 ∧ RingInReady (r 1 false (.buffer 0)) ∧ ¬ RingInReady (r 1 false .waiting)
     ∧ [4096, 4095, 512, 511].map (fun n => levelOf (s n) .camera0) = [.high, .low, .low, .quiet]
     ∧ [(1024, false), (1023, false), (1, true)].map (fun x => levelOf (r x.1 x.2 (.buffer 0)) .ringIn)
        = [.high, .quiet, .high])
    ∧ (let f (n : Nat) := pane0 (screenAt 500 0 fun x => { x with fifo := List.replicate n (need0, 1) })
       ScreenFetches (f 512) 8 ∧ ¬ ScreenFetches (f 513) 8
       ∧ [512, 513, 2048, 2049].map (fun n => levelOf (f n) .screen) = [.high, .low, .low, .quiet])
    ∧ (let w (p : Bool) : State := { member with wc := { member.wc with queue := [writeItem member .plain p 0 [1]] } }
       levelOf (w true) .window = .high ∧ levelOf (w false) .window = .low ∧ levelOf member .window = .quiet) := by
  refine ⟨by decide +kernel, by decide +kernel, by decide +kernel⟩

/-- R170, R173, R186: the reads that a grant issues: of a palette load, of a pane's first line, and of a view's segment. -/
theorem witness_ReadsIssued :
    (let s := modLoad 0 (fun x => { x with state := .reading, address := 0x60080, issued := 0 }) member
     levelOf s .screen = .low ∧ (∀ q, levelOf s q ≠ .high) ∧ paneLevel s = .quiet
     ∧ (after .grant s).sc.loads[(0 : Fin 2)].issued = 128)
    ∧ (let s := pane0 (screenAt 500 0 id)
       levelOf s .screen = .high ∧ paneLevel s ≠ .quiet ∧ (after .grant s).sc.reads.map (·.length) = [256]
       ∧ (after .grant s).sc.fetchAt = 256)
    ∧ (let s := modView 0 (fun x => { x with prepared := some { toRead := [(0, 0), (1, 0)], ready := none } }) sendingView
       levelOf s .ringOut = .low ∧ (∀ q, levelOf s q ≠ .high)
       ∧ (∀ q ∈ [Requester.screen, .camera0, .camera1, .ringIn, .window], levelOf s q ≠ .low)
       ∧ ((after .grant s).ve.views[(0 : Fin 4)].prepared).map (fun p => (p.toRead, p.issued))
          = some ([(1, 0)], [(0, 0)])) := by
  refine ⟨⟨by decide +kernel, fun q => ?_, by decide +kernel, by decide +kernel⟩, by decide +kernel,
    ⟨by decide +kernel, fun q => ?_, by decide +kernel, by decide +kernel⟩⟩ <;> cases q <;> decide +kernel

theorem witness_BusErrorsHandled :
    (let s := modView 0 (fun x => { x with prepared := some { toRead := [], issued := [(0, 0)] } }) sendingView
     s.ve.views[(0 : Fin 4)].current.isSome ∧ s.ve.views[(0 : Fin 4)].prepared = some { toRead := [], issued := [(0, 0)] }
     ∧ (bufferAt s (viewPool s.ve.views[(0 : Fin 4)].set) 0).isSome)
    ∧ (member.ve.views[(0 : Fin 4)].current = none ∧ member.sc.reads = []
      ∧ (screenAt 0 0 fun x => { x with reads := [[need0]] }).sc.reads = [[need0]])
    ∧ (let s := after .grant writing
       s.cu[(0 : Fin 2)].flight[0]? = some granted ∧ s.cu[(0 : Fin 2)].flight[1]? = none
       ∧ (after (.busError (.camera 0 0)) s).cu[(0 : Fin 2)].frames.map (·.flags.overrun) = [true]
       ∧ (after (.frameCompletion 0) (after .grant (after (.busError (.camera 0 0)) s))).mem = []
       ∧ (after (.busError (.camera 0 0)) (after .grant s)).cu[(0 : Fin 2)].frames.map (·.flags.overrun) = [true]
       ∧ (after (.frameCompletion 0) (after (.busError (.camera 0 0)) (after .grant s))).mem = [])
    ∧ ({ member with ve := { member.ve with flight := [granted] } } : State).ve.flight[0]? = some granted
    ∧ (State.reset.wc.winbase = 0 ∧ member.wc.fault = false ∧ member.wc.winbase ≠ 0)
    ∧ (held { cmd := .ringHeal, tag := 1 } member).wc.records[(0 : Fin 16)] = some { cmd := .ringHeal, tag := 1 } := by
  decide +kernel

/-- A DONE result. -/
def doneRec (p : ResultPhase) : CellRecord := { cmd := .ringHeal, tag := 1, result := some (resultOk []), phase := p }

theorem witness_WindowWritesComplete :
    (let s := held (doneRec .fields) member
     s.wc.records[(0 : Fin 16)] = some (doneRec .fields) ∧ windowOn s = true ∧ landed s (.cell 0) = true
     ∧ (after (.finalWrite 0) s).wc.records[(0 : Fin 16)] = some (doneRec .final)
     ∧ landed (after (.finalWrite 0) s) (.cell 0) = false)
    ∧ ((held (doneRec .final) member).wc.records[(0 : Fin 16)] = some (doneRec .final)
      ∧ landed (held (doneRec .final) member) (.cell 0) = true
      ∧ (held (doneRec .kept) member).wc.records[(0 : Fin 16)] = some (doneRec .kept))
    ∧ (windowOn State.reset = false ∧ member.wc.publish = .idle ∧ member.wc.mirror = none)
    ∧ (let s := { member with wc := { member.wc with publish := .page 7 } }
       s.wc.publish = .page 7 ∧ windowOn s = true ∧ landed s .page = true)
    ∧ (let s := { member with wc := { member.wc with publish := .header } }
       s.wc.publish = .header ∧ landed s .publishHeader = true)
    ∧ (let s := { member with wc := { member.wc with mirror := some ⟨3, true⟩ } }
       s.wc.mirror = some ⟨3, true⟩ ∧ landed s .mirror = true) := by decide +kernel

theorem witness_CellsHeldAndRefused :
    ((held (doneRec .kept) member).wc.records[(0 : Fin 16)]).isSome ∧ member.wc.records[(0 : Fin 16)] = none
    ∧ (ownerOf (.engage 1) 0 (member.taken 0 5 (.engage 1))).2
      = .result { code := .wrongState, clamped := false, data := [] } := by decide +kernel

theorem witness_BoardScanTakesCells :
    (let s := { member with wc := { member.wc with scanning := true } }
     let posted : CellImage := { blankCell with state := 1, code := 0x13, params := 1 :: List.replicate 43 0 }
     let cells := List.replicate 15 blankCell ++ [posted]
     cells.length = 16 ∧ windowOn s = true ∧ s.wc.scanning = true ∧ landed s .scan = true
     ∧ decodeCell posted.code posted.params posted.descs = .engage 1
     ∧ ((after (.boardScan cells) s).wc.records[(15 : Fin 16)]).isSome ∧ (after (.boardScan cells) s).wc.scanning = false)
    ∧ (let s := { member with wc := { member.wc with scanning := true } }
       let pool : CellImage := { blankCell with
         state := 1, code := 0x38, params := [0, 2, 0] ++ List.replicate 41 0
         descs := [⟨0x40000, 1, 64⟩, ⟨0x50000, 1, 64⟩] }
       let cells := pool :: List.replicate 15 blankCell
       let t := after (.boardScan cells) s
       t.wc.descRead = [0] ∧ t.wc.queue.map (·.addr) = [0x11400, 0x11420] ∧ t.wc.records[(0 : Fin 16)] = none
       ∧ t.wc.scanning = true ∧ landed t .scan = false
       ∧ (let u := after (.boardScan cells) { t with wc := { t.wc with queue := [] } }
          u.pm.pools[(0 : Fin 6)].configured = true ∧ u.wc.scanning = false ∧ u.wc.descRead = []))
    ∧ (List.replicate 16 blankCell).length = 16 ∧ blankCell.state ≠ 1 ∧ windowOn State.reset = false := by decide +kernel

theorem witness_SettingsStored : member.wc.records[(0 : Fin 16)] = none ∧ periodOf 3 = some .us1000
    ∧ 3 < (4 : Byte).toNat := by decide +kernel

theorem witness_LineCommands : master.wc.records[(0 : Fin 16)] = none := by decide +kernel

theorem witness_SetSectionStores : member.wc.records[(0 : Fin 16)] = none
    ∧ (4 : Byte).toNat = (3 : Fin 4).val + 1 ∧ 4 < (5 : Byte).toNat := by decide +kernel

/-- ASSIGN_CHANNEL parameters at the ends of their ranges. -/
def assign : AssignChannelP :=
  { channel := 11, sect := 4, address := 15, followLimit := 0x01000000, followCount := 15, missLimit := 15, cls := 3 }

theorem witness_ChannelCommands :
    member.wc.records[(0 : Fin 16)] = none
    ∧ (assign.channel.toNat = (11 : Fin 12).val ∧ classOf assign.cls = some .cut ∧ assign.sect.toNat = (3 : Fin 4).val + 1
      ∧ assign.address.toNat ≤ 15 ∧ assign.followLimit.toNat ≤ 16777216 ∧ assign.followCount.toNat ≤ 15
      ∧ assign.missLimit.toNat ≤ 15 ∧ 1 ≤ assign.address.toNat ∧ 1 ≤ assign.followLimit.toNat)
    ∧ (({ assign with sect := 0xFF }).sect = 0xFF ∧ (chan0 id member).gu.channels[(0 : Fin 12)].state = .tracking
      ∧ (chan0 (fun c => { c with state := .active }) member).gu.channels[(0 : Fin 12)].state = .active
      ∧ member.gu.channels[(0 : Fin 12)].state = .free)
    ∧ 11 < (12 : Byte).toNat ∧ (∀ k : Fin 12, member.gu.channels[k].state ≠ .faulted)
    ∧ (let c := (chan0 (fun c => { c with state := .faulted, flags := { noReply := true } }) member).gu.channels[(0 : Fin 12)]
       c.state = .faulted ∧ c.present = {} ∧ c.flags ≠ {}) := by decide +kernel

theorem witness_TorqueSwitches : member.wc.records[(0 : Fin 16)] = none ∧ (1 : Byte).toNat = (0 : Fin 4).val + 1
    ∧ 4 < (5 : Byte).toNat ∧ 1 < (2 : Byte).toNat := by decide +kernel

theorem witness_EngageAndDisengage :
    (let s := sect1 (fun x => { x with state := .engaging, engageCell := some 0 }) (held { cmd := .engage 1, tag := 1 } member)
     s.wc.records[(1 : Fin 16)] = none ∧ (1 : Byte).toNat = (0 : Fin 4).val + 1 ∧ s.gu.sections[(0 : Fin 4)].state = .engaging
     ∧ s.gu.sections[(0 : Fin 4)].engageCell = some 0 ∧ (0 : Fin 16) ≠ 1 ∧ (s.wc.records[(0 : Fin 16)]).isSome)
    ∧ (∀ st : SectionState, (sect1 (fun x => { x with state := st }) member).gu.sections[(0 : Fin 4)].state = st) :=
  ⟨by decide +kernel, fun _ => rfl⟩

theorem witness_JogAndTrim : member.wc.records[(0 : Fin 16)] = none ∧ (4 : Byte).toNat = (3 : Fin 4).val + 1
    ∧ (11 : Byte).toNat = (11 : Fin 12).val ∧ (1 : Byte).toNat ≤ 1 ∧ 1 < (2 : Byte).toNat := by decide +kernel

theorem witness_RingCommands :
    (master.wc.records[(0 : Fin 16)] = none ∧ master.straps.master = true ∧ member.straps.master = false
      ∧ 31 < (32 : Byte).toNat ∧ (31 : Byte).toNat = (31 : NodeAddr).val)
    ∧ (master.ag.lineState = .standstill ∧ (healing 1).ri.present[(4 : NodeAddr)] ≠ none
      ∧ master.ri.present[(4 : NodeAddr)] = none)
    ∧ ({ master with ag := { master.ag with lineState := .running } } : State).ag.lineState ≠ .halted := by decide +kernel

theorem witness_TripCommands :
    (member.wc.records[(0 : Fin 16)] = none ∧ (15 : Byte).toNat ≤ 15 ∧ 15 < (16 : Byte).toNat ∧ classOf 2 = some .stop
      ∧ member.ct.nodeState ≠ .config ∧ State.reset.ct.nodeState = .config ∧ member.tc.table.length < 32
      ∧ findCond member .command 15 = none ∧ findEntry member (ownKey member .command 15) = none)
    ∧ findCond (cond .command 15 .stop member) .command 15 ≠ none
    ∧ ((2 : Byte).toNat < TripKind.indices .input ∧ tripKindOf 1 = some .input ∧ (3 : Byte).toNat = (3 : NodeAddr).val
      ∧ findEntry (table [entry 3 true 0] member) ⟨3, .input, 2⟩ = some (entry 3 true 0)
      ∧ findEntry (table [entry 3 false 0] member) ⟨3, .input, 2⟩ = some (entry 3 false 0)
      ∧ findCond (table [entry 3 true 0] member) .input 2 = none ∧ unstored (table [entry 3 true 0] member) = []
      ∧ (after (.clearTrip 0 0 ⟨3, 1, 2⟩) (table [entry 3 true 0, entry 5 true 0] member)).tc.table = [entry 5 true 0]
      ∧ findEntry member ⟨3, .input, 2⟩ = none ∧ (4 : NodeAddr) ≠ member.straps.address) := by decide +kernel

/-- An own COMMAND entry of index 15. -/
def ownEntry (latched : Bool) : TripEntry := { entry 3 latched 0 with key := ⟨3, .command, 15⟩, cls := .stop }

/-- R88, R105: RAISE_TRIP on an entry that is LATCHED, on an ACTIVE one with its condition in another class, and in the same one; R106: RELEASE_TRIP; R42, R41: the level that rises. -/
theorem witness_TripCommandsAgain :
    (let s := table [ownEntry true] member
     let t := after (.raiseTrip 0 0 ⟨15, 3⟩) s
     findEntry s (ownKey s .command 15) = some (ownEntry true) ∧ findCond s .command 15 = none
     ∧ t.tc.table.map (fun e => (e.latched, e.count, e.cls)) = [(false, 2, .cut)] ∧ t.tc.queue.map (·.count) = [2]
     ∧ effLevel t = .cut ∧ effLevel s ≠ .cut)
    ∧ (let s := cond .command 15 .stop (table [ownEntry false] member)
       findCond s .command 15 = some ⟨.command, 15, .stop⟩ ∧ (ownEntry false).latched = false
       ∧ (after (.raiseTrip 0 0 ⟨15, 2⟩) s).tc.table.map (·.count) = [2] ∧ (after (.raiseTrip 0 0 ⟨15, 2⟩) s).tc.queue = []
       ∧ (after (.raiseTrip 0 0 ⟨15, 3⟩) s).tc.table.map (fun e => (e.count, e.cls)) = [(1, .cut)]
       ∧ (after (.raiseTrip 0 0 ⟨15, 3⟩) s).tc.queue.length = 1
       ∧ (after (.releaseTrip 0 0 15) s).tc.table = [ownEntry true])
    ∧ (effLevel (after (.raiseTrip 0 0 ⟨15, 2⟩) member) = .stop ∧ effLevel member = .none) := by decide +kernel

/-- R89, R105: RAISE_TRIP answers 0 in CONFIG and for a condition that finds no place; R183, R184: what the window then shows. -/
theorem witness_RaiseUnstored :
    (let answer (t : State) := ((t.wc.records[(0 : Fin 16)]).bind (·.result)).map (·.data)
     let t := after (.raiseTrip 0 0 ⟨15, 2⟩) (nodeIn .config member)
     answer t = some [0, 0, 0, 0] ∧ t.tc.table = [] ∧ findCond t .command 15 = some ⟨.command, 15, .stop⟩
     ∧ (let s := table (fullTable false) member
        let t := after (.raiseTrip 0 0 ⟨15, 2⟩) s
        answer t = some [0, 0, 0, 0] ∧ t.tc.table = s.tc.table ∧ t.tc.overflows = 1 ∧ t.wc.version = s.wc.version)
     ∧ (let t := after (.raiseTrip 0 0 ⟨15, 2⟩) member
        answer t = some [1, 0, 0, 0] ∧ t.wc.version = member.wc.version + 1 ∧ t.wc.attn.getLsbD 1 = true
        ∧ t.wc.mirror = some { version := t.wc.version, stale := false })) := by decide +kernel

theorem witness_SetTripInputActs :
    (member.wc.records[(0 : Fin 16)] = none ∧ (7 : Byte).toNat = (7 : Fin 8).val ∧ 7 < (8 : Byte).toNat
      ∧ classOf 3 = some .cut ∧ (15 : Byte).toNat ≤ 15 ∧ 15 < (16 : Byte).toNat)
    ∧ (let x : TripInput := { enabled := true, tripping := true }
       let s := { member with tc := { member.tc with inputs := member.tc.inputs.set 7 x } }
       s.tc.inputs[(7 : Fin 8)].enabled = true ∧ s.tc.inputs[(7 : Fin 8)].tripping = true
       ∧ s.tc.inputs[(7 : Fin 8)].cls ≠ .cut ∧ member.tc.inputs[(7 : Fin 8)].enabled = false) := by decide +kernel

/-- R86, R88: a tripping input whose class changes; FORGET_NODE and ASSIGN_CHANNEL that end a condition. -/
theorem witness_ConditionsMove :
    (let e : TripEntry := { entry 3 false 0 with key := ⟨3, .input, 7⟩ }
     let u := cond .input 7 .note (table [e] member)
     let s := { u with tc := { u.tc with inputs := u.tc.inputs.set 7 { enabled := true, cls := .note, tripping := true } } }
     let t := after (.setTripInput 0 0 { input := 7, cls := 2, tripsLow := 0, debounce := 0, disable := 0 }) s
     findEntry s (ownKey s .input 7) = some e ∧ e.latched = false ∧ t.tc.table.map (·.cls) = [.stop] ∧ effLevel t = .stop
     ∧ t.tc.queue.map (fun b => (b.cls, b.state)) = [(.stop, .active)]
     ∧ (after (.setTripInput 0 0 { input := 7, cls := 2, tripsLow := 0, debounce := 0, disable := 1 }) s).tc.table.map (·.latched)
       = [true])
    ∧ (let e : TripEntry := { entry 0 false 0 with key := ⟨0, .nodeMissing, 4⟩ }
       let s := cond .nodeMissing 4 .note (table [e] (healing 0))
       findCond s .nodeMissing 4 ≠ none ∧ s.ri.present[(4 : NodeAddr)] ≠ none ∧ findEntry s (ownKey s .nodeMissing 4) = some e
       ∧ (after (.forgetNode 5 0 4) s).tc.table.map (·.latched) = [true] ∧ (after (.forgetNode 5 0 4) s).tc.conds = [])
    ∧ (let s := cond .channel 0 .stop (chan0 id member)
       findCond s .channel 0 ≠ none
       ∧ (after (.assignChannel 0 0 { assign with channel := 0, sect := 0xFF }) s).tc.conds = []) := by decide +kernel

theorem witness_StreamCommands :
    (member.wc.records[(0 : Fin 16)] = none ∧ (1 : Byte).toNat = (1 : Fin 2).val ∧ 1 < (2 : Byte).toNat
    ∧ (4096 : Half).toNat % 8 = 0 ∧ (0xFFFFF : Word).toNat < 1048576 ∧ 1048576 ≤ (0x100000 : Word).toNat
    ∧ member.cu[(0 : Fin 2)].state = .idle ∧ (capturing id member).cu[(0 : Fin 2)].state ≠ .idle)
    ∧ (let s := capturing (fun x => { x with frames := [frame5 .waiting 3] }) member
       s.cu[(0 : Fin 2)].frames.getLast? = some (frame5 .waiting 3) ∧ (frame5 .waiting 3).target ≠ .skip
       ∧ (after (.stopStream 0 0 0) s).cu[(0 : Fin 2)].frames.map (fun f => (f.resolved, f.flags.truncated, f.flags.incomplete))
          = [(2048, true, true)]) := by decide +kernel

theorem witness_PoolAndReceiveCommands :
    (let ds : List DescRead := [⟨0x40000, 1, 1⟩, ⟨0x50000, 0xFFFF, 0xFFFF⟩]
     member.wc.records[(0 : Fin 16)] = none ∧ (5 : Byte).toNat = (5 : Fin 6).val ∧ poolInUse member 5 = false
     ∧ poolInUse (pool 5 twoBuffers member) 5 = true ∧ (2 : Byte).toNat ≤ ds.length ∧ ds.length < (3 : Byte).toNat
     ∧ (∀ d ∈ ds.take 2, d.address.toNat % 64 = 0 ∧ d.capacity ≠ 0 ∧ d.stride ≠ 0)
     ∧ (∃ d ∈ ([⟨0x40001, 1, 1⟩, ⟨0x40040, 1, 1⟩] : List DescRead).take 2,
        d.address.toNat % 64 ≠ 0 ∨ d.capacity = 0 ∨ d.stride = 0))
    ∧ ((5 : Byte).toNat = (3 : Fin 4).val + 2 ∧ (31 : Byte).toNat = (31 : NodeAddr).val ∧ 31 < (32 : Byte).toNat
      ∧ (0x1000 : Half).toNat ≤ 4096 ∧ 4096 < (0x1001 : Half).toNat ∧ (bound id).ve.bindings[(0 : Fin 4)].source ≠ none
      ∧ (let x := (bound fun x => { x with asm := .openA, frames := [openFrame] }).ve.bindings[(0 : Fin 4)]
         x.asm = .openA ∧ x.frames.getLast? = some openFrame)) := by
  decide +kernel

theorem witness_ViewCommands :
    member.wc.records[(0 : Fin 16)] = none ∧ (3 : Byte).toNat = (3 : Fin 4).val ∧ 3 < (4 : Byte).toNat
    ∧ (4095 : Half).toNat ≤ 4095 ∧ (4096 : Half).toNat ≤ 4096 ∧ member.ve.views[(0 : Fin 4)].state = .stopped
    ∧ sendingView.ve.views[(0 : Fin 4)].state = .sending ∧ sendingView.ve.views[(0 : Fin 4)].current.isSome
    ∧ (bufferAt sendingView (viewPool sendingView.ve.views[(0 : Fin 4)].set) 0).isSome
    ∧ (modView 0 (fun x => { x with state := .waiting }) member).ve.views[(0 : Fin 4)].state = .waiting := by decide +kernel

theorem witness_ScreenSetupCommands :
    member.wc.records[(0 : Fin 16)] = none ∧ (3 : Byte).toNat = (3 : Fin 4).val ∧ (5 : Byte).toNat = (5 : Fin 6).val
    ∧ (1279 : Half).toNat ≤ 1279 ∧ (1280 : Half).toNat ≤ 1280 ∧ 1279 < (1280 : Half).toNat ∧ (1024 : Half).toNat ≤ 1024
    ∧ (4096 : Half).toNat ≤ 4096 ∧ 1 < (2 : Byte).toNat ∧ (1 : Byte).toNat ≤ 1 := by decide +kernel

theorem witness_ScreenCommands :
    member.wc.records[(0 : Fin 16)] = none ∧ member.sc.enabled = false ∧ (screenAt 0 0 id).sc.enabled = true
    ∧ (screenAt 0 0 id).wc.records[(0 : Fin 16)] = none ∧ ((0 : Byte) = 1 ↔ member.sc.enabled = true)
    ∧ (3 : Byte).toNat = (3 : Fin 4).val ∧ 3 < (4 : Byte).toNat ∧ (1 : Byte).toNat = (1 : Fin 2).val
    ∧ (let s := filled (modPane 0 (fun x => { x with held := some (0, 0), flip := some 4 }) (screenAt 0 0 id))
       let u := modPool 0 (fun p => { p with buffers := [{ fullBuffer with readers := 1 }] }) s
       s.sc.panes[(0 : Fin 4)].flip = some 4 ∧ u.pm.pools[(0 : Fin 6)].buffers[0]? = some { fullBuffer with readers := 1 }
       ∧ (after (.screenEnable 0 0 0) u).pm.pools[(0 : Fin 6)].buffers = [fullBuffer]) := by decide +kernel

end Sys2Proof.Tests
end

section
/-! PROOFS. O47, the commands of the line axis (R10, R11, R108): first what an answer given at once makes of
the part, then clamping and levels, then the owners' actions case by case. -/

namespace Sys2Proof.Machine

/-! ### Answers given at once -/

/-- A command that its owner refuses changes nothing but its cell (section 1.9 of 00_scope.md). -/
theorem takeAs_refused {cell : Fin 16} {tag : Half} {cmd : BoardCmd} {act : State → State × Reply} {s : State}
    {code : ResultCode} (free : s.wc.records[cell] = none)
    (answers : act (s.taken cell tag cmd) = refuse (s.taken cell tag cmd) code) :
    takeAs cell tag cmd act s = s.refused cell tag cmd code := by
  rw [takeAs_free tag cmd act free, answers]
  exact settleReply_answer (refusal code) rfl

/-- A command answered at once by an owner that changed the Axis Generator alone. -/
theorem takeAs_axis {cell : Fin 16} {tag : Half} {cmd : BoardCmd} {act : State → State × Reply} {s : State} {ag : AxisGen}
    {r : Result} (free : s.wc.records[cell] = none)
    (answers : act (s.taken cell tag cmd) = ({ s.taken cell tag cmd with ag := ag }, .result r)) :
    takeAs cell tag cmd act s = { s.answer cell tag cmd r with ag := ag } := by
  rw [takeAs_free tag cmd act free, answers]
  exact settleReply_answer r rfl

/-! ### Clamping and levels -/

theorem clampInt_eq_max_min {lo hi : Int} (h : lo ≤ hi) (x : Int) : clampInt lo hi x = max lo (min hi x) := by
  unfold clampInt
  split
  · omega
  · split <;> omega

/-- The range of R10 and R11 holds 0, so it is never empty. -/
theorem clamped_axis (vRev vMax : Nat) (x : Int) : clamped (-(vRev : Int)) (vMax : Int) x =
    (max (-(vRev : Int)) (min (vMax : Int) x), decide (max (-(vRev : Int)) (min (vMax : Int) x) ≠ x)) := by
  rw [clamped, clampInt_eq_max_min (by omega)]

theorem level_isStop_iff (l : Level) : l.isStop = true ↔ l = .stop ∨ l = .cut := by
  cases l <;> decide

theorem lineTripped_iff (s : State) : lineTripped s = true ↔ s.tc.lineTerm = .stop ∨ s.tc.lineTerm = .cut
    ∨ s.ag.lineState = .stopping ∨ s.ag.lineState = .halted ∨ s.ag.lineState = .torqueOff := by
  simp only [lineTripped, Bool.or_eq_true, level_isStop_iff, decide_eq_true_eq, or_assoc]

/-! ### SET_LINE_SPEED (R10) -/

theorem ownSetLineSpeed_notMaster {s : State} (d : Word) (hm : s.straps.master = false) :
    ownSetLineSpeed d s = refuse s .notMaster := by
  simp [ownSetLineSpeed, isMaster, hm]

theorem ownSetLineSpeed_tripped {s : State} (d : Word) (hm : s.straps.master = true) (ht : lineTripped s = true) :
    ownSetLineSpeed d s = refuse s .tripped := by
  simp [ownSetLineSpeed, isMaster, hm, ht]

/-- The demand as R10 clamps and stores it. -/
theorem ownSetLineSpeed_stores {s : State} (d : Word) (hm : s.straps.master = true) (ht : lineTripped s = false) :
    ownSetLineSpeed d s =
      (let v : Int := max (-(s.ag.vRev : Int)) (min (s.ag.vMax : Int) d.toInt)
       doneClamped { s with ag := { s.ag with demand := v } } (decide (v ≠ d.toInt)) (leSigned 4 v)) := by
  simp [ownSetLineSpeed, isMaster, hm, ht, clamped_axis, int32]

/-! ### SET_LINE_LIMITS (R11) -/

/-- A value of SET_LINE_LIMITS lies outside its range (R11). -/
def LineLimitsOutOfRange (p : SetLineLimitsP) : Prop :=
  4194304 < p.vMax.toNat ∨ 4194304 < p.vRev.toNat ∨ p.aUp = 0 ∨ p.aDown = 0 ∨ p.aStop = 0

theorem ownSetLineLimits_badParam {p : SetLineLimitsP} (s : State) (h : LineLimitsOutOfRange p) :
    ownSetLineLimits p s = refuse s .badParam := if_pos h

/-- The five limits and the demand clamped to the new ones (R11); v stays. -/
theorem ownSetLineLimits_stores {p : SetLineLimitsP} (s : State) (h : ¬ LineLimitsOutOfRange p) :
    ownSetLineLimits p s =
      (let v : Int := max (-(p.vRev.toNat : Int)) (min (p.vMax.toNat : Int) s.ag.demand)
       doneClamped { s with ag := { s.ag with demand := v, vMax := p.vMax.toNat, vRev := p.vRev.toNat, aUp := p.aUp.toNat
                                              aDown := p.aDown.toNat, aStop := p.aStop.toNat } }
         (decide (v ≠ s.ag.demand)) []) := by
  refine (if_neg h).trans ?_
  rw [clamped_axis]

/-! ### LINE_REARM (R108) -/

theorem ownLineRearm_notMaster {s : State} (hm : s.straps.master = false) : ownLineRearm s = refuse s .notMaster := by
  simp [ownLineRearm, isMaster, hm]

theorem ownLineRearm_wrongState {s : State} (hm : s.straps.master = true)
    (hl : s.ag.lineState ≠ .halted ∧ s.ag.lineState ≠ .torqueOff) : ownLineRearm s = refuse s .wrongState := by
  simp [ownLineRearm, isMaster, hm, hl]

theorem ownLineRearm_tripped {s : State} (hm : s.straps.master = true)
    (hl : ¬ (s.ag.lineState ≠ .halted ∧ s.ag.lineState ≠ .torqueOff)) (ht : (lineLevel s).isStop = true) :
    ownLineRearm s = refuse s .tripped := by
  simp [ownLineRearm, isMaster, hm, if_neg hl, ht]

theorem ownLineRearm_rearms {s : State} (hm : s.straps.master = true)
    (hl : ¬ (s.ag.lineState ≠ .halted ∧ s.ag.lineState ≠ .torqueOff)) (ht : (lineLevel s).isStop = false) :
    ownLineRearm s = doneWith { s with ag := { s.ag with lineState := .standstill } } [byte (lineLevel s).code] := by
  simp [ownLineRearm, isMaster, hm, if_neg hl, ht]

/-- Settles O47: each of the three commands by the cases of its owner's action, in the order of its refusals. -/
theorem lineCommands : Obligations.LineCommands := by
  unfold Obligations.LineCommands
  intro cell tag s free
  refine ⟨fun d => congrArg Host.Outcome.next ?speed, fun p => congrArg Host.Outcome.next ?limits,
    congrArg Host.Outcome.next ?rearm⟩
  case speed =>
    simp only [← lineTripped_iff]
    split
    next hm => exact takeAs_refused free (ownSetLineSpeed_notMaster d hm)
    next hm =>
      have master : s.straps.master = true := eq_true_of_ne_false hm
      split
      next ht => exact takeAs_refused free (ownSetLineSpeed_tripped d master ht)
      next ht => exact takeAs_axis free (ownSetLineSpeed_stores d master (eq_false_of_ne_true ht))
  case limits =>
    dsimp only
    split
    next h => exact takeAs_refused free (ownSetLineLimits_badParam _ h)
    next h => exact takeAs_axis free (ownSetLineLimits_stores _ h)
  case rearm =>
    simp only [← level_isStop_iff]
    split
    next hm => exact takeAs_refused free (ownLineRearm_notMaster hm)
    next hm =>
      have master : s.straps.master = true := eq_true_of_ne_false hm
      split
      next hl => exact takeAs_refused free (ownLineRearm_wrongState master hl)
      next hl =>
        split
        next ht => exact takeAs_refused free (ownLineRearm_tripped master hl ht)
        next ht => exact takeAs_axis free (ownLineRearm_rearms master hl (eq_false_of_ne_true ht))

end Sys2Proof.Machine
end

section
/-! PROOFS. What every operation of the compute event outside the Gear Unit leaves alone, and why no rise to CUT comes of it
(R41, R86, R88, R102). -/

namespace Sys2Proof.Machine

/-! ### The level CUT (R102) -/

/-- No term of the effective level is CUT. -/
def NoCut (s : State) : Prop :=
  (∀ e ∈ s.tc.table, e.cls ≠ .cut) ∧ (∀ c ∈ s.tc.conds, c.cls ≠ .cut) ∧ s.tc.lineTerm ≠ .cut

theorem level_max_eq_cut_iff (a b : Level) : Level.max a b = .cut ↔ a = .cut ∨ b = .cut := by
  cases a <;> cases b <;> decide

theorem maxLevel_eq_cut_iff (ls : List Level) : maxLevel ls = .cut ↔ .cut ∈ ls := by
  induction ls with
  | nil => decide
  | cons l ls ih =>
    have step : maxLevel (l :: ls) = Level.max l (maxLevel ls) := rfl
    rw [step, level_max_eq_cut_iff, ih, List.mem_cons, eq_comm]

theorem tripClass_level_eq_cut_iff (c : TripClass) : c.level = .cut ↔ c = .cut := by
  cases c <;> decide

theorem noCut_iff (s : State) : NoCut s ↔ effLevel s ≠ .cut := by
  simp only [NoCut, effLevel, tableLevel, condLevel, ne_eq, level_max_eq_cut_iff, maxLevel_eq_cut_iff, List.mem_map,
    tripClass_level_eq_cut_iff, not_or, not_exists, not_and, and_assoc]

/-! ### Operations that leave the Gear Unit and the board's records alone -/

/-- From `s` to `t` the Gear Unit, the node state and the cell records stand, and no term of the level becomes CUT. -/
structure OffGear (s t : State) : Prop where
  gu : t.gu = s.gu
  nodeState : t.ct.nodeState = s.ct.nodeState
  records : t.wc.records = s.wc.records
  noCut : NoCut s → NoCut t

namespace OffGear

theorem refl (s : State) : OffGear s s := ⟨rfl, rfl, rfl, id⟩

theorem trans {s t u : State} (a : OffGear s t) (b : OffGear t u) : OffGear s u :=
  ⟨b.gu.trans a.gu, b.nodeState.trans a.nodeState, b.records.trans a.records, b.noCut ∘ a.noCut⟩

theorem after {s t u : State} (b : OffGear t u) (a : OffGear s t) : OffGear s u := a.trans b

/-- A loop of such operations is one. -/
theorem foldl {α : Type} {f : State → α → State} (step : ∀ s a, OffGear s (f s a)) (l : List α) (s : State) :
    OffGear s (l.foldl f s) := by
  induction l generalizing s with
  | nil => exact refl s
  | cons a l ih => exact (step s a).trans (ih _)

/-- One branch or the other. -/
theorem ite {p : Prop} [Decidable p] {s t u : State} (a : OffGear s t) (b : OffGear s u) : OffGear s (if p then t else u) := by
  split
  · exact a
  · exact b

/-! #### Local time, window and trip table -/

theorem advance (now : Time) (s : State) : OffGear s (advance now s) := ⟨rfl, rfl, rfl, id⟩

theorem setAttn (r : Reason) (s : State) : OffGear s (setAttn r s) := ⟨rfl, rfl, rfl, id⟩

theorem refreshMirror (s : State) : OffGear s (refreshMirror s) := by
  unfold Machine.refreshMirror
  split
  · split <;> exact ⟨rfl, rfl, rfl, id⟩
  · exact refl s

theorem tableChanged (s : State) : OffGear s (tableChanged s) :=
  (refreshMirror _).after ⟨rfl, rfl, rfl, id⟩

/-- A table change that brings in no entry of class CUT. -/
theorem editTable {f : List TripEntry → List TripEntry} {s : State}
    (clean : (∀ e ∈ s.tc.table, e.cls ≠ .cut) → ∀ e ∈ f s.tc.table, e.cls ≠ .cut) : OffGear s (editTable f s) :=
  (tableChanged { s with tc := { s.tc with table := f s.tc.table } }).after
    ⟨rfl, rfl, rfl, fun ⟨table, rest⟩ => ⟨clean table, rest⟩⟩

theorem dropKey (k : Key) (s : State) : OffGear s (Machine.editTable (dropKey k) s) :=
  editTable fun table e he => table e (List.mem_filter.1 he).1

theorem append {e : TripEntry} (he : e.cls ≠ .cut) (s : State) : OffGear s (Machine.editTable (fun t => t ++ [e]) s) :=
  editTable fun table x hx => by
    rcases List.mem_append.1 hx with hx | hx
    · exact table x hx
    · rwa [List.mem_singleton.1 hx]

theorem queueBurst (b : QBurst) (s : State) : OffGear s (queueBurst b s) := by
  rw [queueBurst_frame]; exact ⟨rfl, rfl, rfl, id⟩

theorem updateEntry {f : TripEntry → TripEntry} (clean : ∀ e : TripEntry, e.cls ≠ .cut → (f e).cls ≠ .cut) (k : Key)
    (s : State) : OffGear s (updateEntry k f s) := by
  have edit : OffGear s { s with tc := { s.tc with table := s.tc.table.map fun x => if x.key = k then f x else x } } := by
    refine ⟨rfl, rfl, rfl, fun ⟨table, rest⟩ => ⟨fun e he => ?_, rest⟩⟩
    obtain ⟨x, hx, rfl⟩ := List.mem_map.1 he
    split
    · exact clean x (table x hx)
    · exact table x hx
  unfold Machine.updateEntry
  split
  · exact refl s
  · exact ite edit (edit.trans (tableChanged _))

theorem updateAndBurst {f : TripEntry → TripEntry} (clean : ∀ e : TripEntry, e.cls ≠ .cut → (f e).cls ≠ .cut) (k : Key)
    (s : State) : OffGear s (updateAndBurst k f s) := by
  unfold Machine.updateAndBurst
  dsimp only
  split
  · exact updateEntry clean k s
  · exact (updateEntry clean k s).trans (queueBurst _ _)

theorem createEntry {e : TripEntry} (he : e.cls ≠ .cut) (s : State) : OffGear s (createEntry e s).1 := by
  unfold Machine.createEntry
  split
  · exact append he s
  · split
    · exact ⟨rfl, rfl, rfl, id⟩
    · split
      · exact ⟨rfl, rfl, rfl, id⟩
      next old _ =>
        have dropped : OffGear s _ := (dropKey old.key s).trans (u := { Machine.editTable (Machine.dropKey old.key) s with
          tc := { (Machine.editTable (Machine.dropKey old.key) s).tc with
            replacements := (Machine.editTable (Machine.dropKey old.key) s).tc.replacements + 1 } }) ⟨rfl, rfl, rfl, id⟩
        exact (dropped.trans (ite (queueBurst _ _) (refl _))).trans (append he _)

theorem createOwn {c : Cond} (hc : c.cls ≠ .cut) (s : State) : OffGear s (createOwn c s) := by
  have made : OffGear s (Machine.createEntry (newOwnEntry s c) s).1 := createEntry hc s
  exact ite (made.trans (queueBurst _ _)) made

theorem storeUnstored {s : State} (h : NoCut s) : OffGear s (storeUnstored s) := by
  unfold Machine.storeUnstored
  split
  · exact refl s
  next c _ hu =>
    have present : c ∈ s.tc.conds := by
      have : c ∈ unstored s := hu ▸ List.mem_cons_self
      unfold unstored at this
      split at this
      · cases this
      · exact (List.mem_filter.1 this).1
    exact ite (createOwn (h.2.1 c present) s) (refl s)

theorem removeEntry (k : Key) {s : State} (h : NoCut s) : OffGear s (removeEntry k s) :=
  (dropKey k s).trans (storeUnstored ((dropKey k s).noCut h))

theorem ageEntries (s : State) : OffGear s (ageEntries s) := by
  refine ⟨rfl, rfl, rfl, fun ⟨table, rest⟩ => ⟨fun e he => ?_, rest⟩⟩
  obtain ⟨x, hx, rfl⟩ := List.mem_map.1 he
  exact table x hx

theorem expire {s : State} (h : NoCut s) : OffGear s (expire s) := by
  unfold Machine.expire
  generalize (s.tc.table.filter (expired s)).map (fun e => e.key) = keys
  induction keys generalizing s with
  | nil => exact refl s
  | cons k keys ih =>
    have step : OffGear s (removeCounted (fun t => { t with expiries := t.expiries + 1 }) k s) :=
      (removeEntry k (s := { s with tc := { s.tc with expiries := s.tc.expiries + 1 } }) h).after ⟨rfl, rfl, rfl, id⟩
    exact step.trans (ih (step.noCut h))

/-- R87, R98: the Trip Controller's share of the compute event. -/
theorem tripEvent {s : State} (h : NoCut s) : OffGear s (tripEvent s) :=
  (ageEntries s).trans (expire ((ageEntries s).noCut h))

theorem queueRefresh (s : State) : OffGear s (queueRefresh s) := by
  unfold Machine.queueRefresh
  refine ite (refl s) (ite (refl s) ?_)
  split
  · exact refl s
  · exact queueBurst _ s

/-! #### Reports of conditions, before the level acts -/

theorem putCond {c : Cond} (hc : c.cls ≠ .cut) (s : State) : OffGear s (setConds (putCond c) s) := by
  refine ⟨rfl, rfl, rfl, fun ⟨table, conds, line⟩ => ⟨table, fun x hx => ?_, line⟩⟩
  simp only [setConds, Machine.putCond] at hx
  split at hx
  · obtain ⟨y, hy, rfl⟩ := List.mem_map.1 hx
    split
    · exact hc
    · exact conds y hy
  · rcases List.mem_append.1 hx with hx | hx
    · exact conds x hx
    · rwa [List.mem_singleton.1 hx]

theorem dropCond (kind : TripKind) (index : Nat) (s : State) : OffGear s (setConds (dropCond kind index) s) :=
  ⟨rfl, rfl, rfl, fun ⟨table, conds, line⟩ => ⟨table, fun x hx => conds x (List.mem_filter.1 hx).1, line⟩⟩

/-- R88, "becomes gone": it lowers the level at most. -/
theorem reportGone (kind : TripKind) (index : Nat) (s : State) : OffGear s (reportGone kind index s) := by
  have dropped := dropCond kind index s
  unfold Machine.reportGone
  refine ite dropped ?_
  split
  · exact dropped
  · exact ite dropped (dropped.trans (updateAndBurst (by exact fun _ h => h) _ _))

/-! #### Capture, pools, views and ring -/

theorem planEvent (s : State) : OffGear s (planEvent s) := ite ⟨rfl, rfl, rfl, id⟩ (refl s)

theorem issuePoolWrites (ws : List PoolWrite) (s : State) : OffGear s (issuePoolWrites ws s) := by
  rw [issuePoolWrites_frame]; exact ⟨rfl, rfl, rfl, id⟩

theorem writeFields (p : Fin 6) (b : Nat) (s : State) : OffGear s (writeFields p b s) := by
  unfold Machine.writeFields
  split
  · exact refl s
  · exact ite (ite (issuePoolWrites _ s) ⟨rfl, rfl, rfl, id⟩) (refl s)

theorem takeBuffer (p : Fin 6) (b : Nat) (s : State) : OffGear s (takeBuffer p b s) :=
  (writeFields p b _).after ⟨rfl, rfl, rfl, id⟩

theorem releaseBuffer (p : Fin 6) (b : Nat) (s : State) : OffGear s (releaseBuffer p b s) := by
  unfold Machine.releaseBuffer
  split
  · exact refl s
  · exact ite (refl s) ((writeFields p b _).after ⟨rfl, rfl, rfl, id⟩)

theorem modView (v : Fin 4) (f : View → View) (s : State) : OffGear s (modView v f s) := ⟨rfl, rfl, rfl, id⟩

theorem prepare (v : Fin 4) (s : State) : OffGear s (prepare v s) := by
  unfold Machine.prepare
  dsimp only
  split
  · exact refl s
  · split
    · exact refl s
    · exact modView v _ s

theorem viewFrameStart (v : Fin 4) (s : State) : OffGear s (viewFrameStart v s) := by
  unfold Machine.viewFrameStart
  refine ite (refl s) ?_
  dsimp only
  split
  · exact refl s
  · split
    · exact refl s
    · exact (takeBuffer _ _ s).trans
        (ite ((modView v _ _).trans (releaseBuffer _ _ _)) ((modView v _ _).trans (prepare v _)))

theorem startViewFrames (s : State) : OffGear s (startViewFrames s) :=
  ite (foldl (fun s v => viewFrameStart v s) _ s) (refl s)

theorem timeoutAssembly (b : Fin 4) (s : State) : OffGear s (timeoutAssembly b s) := ite ⟨rfl, rfl, rfl, id⟩ (refl s)

theorem modBinding (b : Fin 4) (f : Binding → Binding) (s : State) : OffGear s (modBinding b f s) := ⟨rfl, rfl, rfl, id⟩

theorem countIdle (s : State) : OffGear s (countIdle s) := by
  unfold Machine.countIdle
  exact foldl (fun s b => (modBinding b _ s).trans (timeoutAssembly b _)) _ s

theorem queueProbe (p : Port) (s : State) : OffGear s (queueProbe p s) := ite ⟨rfl, rfl, rfl, id⟩ (refl s)

theorem applyHoldover (s : State) : OffGear s (applyHoldover s) := by
  unfold Machine.applyHoldover
  split
  · exact refl s
  · exact ⟨rfl, rfl, rfl, id⟩

end OffGear

end Sys2Proof.Machine
end

section
/-! PROOFS. What the compute event does beside the stage of one section, followed from operation to operation: below CUT that
section, its channels and its pending ENGAGE cell stand (R26, R41 to R43). -/

namespace Sys2Proof.Machine

/-! ### The relation -/

/-- The part runs its sections at a compute event: below CUT and outside CONFIG (R26, R41). -/
def Running (s : State) : Prop := NoCut s ∧ s.ct.nodeState ≠ .config

/-- Cell `e` waits with a command of the section. -/
def Sect.Waits (e : Fin 16) (x : Sect) : Prop := x.engageCell = some e ∨ e ∈ x.disengageCells

/-- No section but `i` has cell `e` waiting. -/
def NotElsewhere (i : Fin 4) (s : State) (e : Fin 16) : Prop := ∀ j : Fin 4, j ≠ i → ¬ (s.gu.sections[j]).Waits e

/-- Two channel records differ in the exchange's marks alone (R49, R52). -/
def Alike (c d : Channel) : Prop :=
  d = { c with late := d.late, hist0 := d.hist0, hist1 := d.hist1, hist2 := d.hist2 }

/-- From `s` to `t` section `i` stands where no jog demand is to fall (R42), its channels stand but for their exchanges' marks,
and so does the record of a cell that no other section has waiting. -/
structure Spares (i : Fin 4) (s t : State) : Prop where
  running : Running t
  sect : s.gu.sections[i].state ≠ .jogging → t.gu.sections[i] = s.gu.sections[i]
  belongs : ∀ k : Fin 12, t.gu.channels[k].sect = s.gu.channels[k].sect
  channel : ∀ k : Fin 12, s.gu.channels[k].sect = some i → Alike s.gu.channels[k] t.gu.channels[k]
  cell : ∀ e, NotElsewhere i s e → NotElsewhere i t e ∧ t.wc.records[e] = s.wc.records[e]

/-- And the gear input stands (R18, R19). -/
structure SparesInput (i : Fin 4) (s t : State) : Prop extends Spares i s t where
  thetaX : t.gu.thetaX = s.gu.thetaX
  delta : t.gu.delta = s.gu.delta

theorem Alike.refl (c : Channel) : Alike c c := rfl

theorem Alike.trans {c d e : Channel} (h : Alike c d) (k : Alike d e) : Alike c e := by
  unfold Alike at h k ⊢; rw [k, h]

theorem Alike.sect {c d : Channel} (h : Alike c d) : d.sect = c.sect := by
  unfold Alike at h; rw [h]

theorem Spares.refl {s : State} (i : Fin 4) (run : Running s) : Spares i s s :=
  ⟨run, fun _ => rfl, fun _ => rfl, fun _ _ => .refl _, fun _ h => ⟨h, rfl⟩⟩

theorem Spares.trans {i : Fin 4} {s t u : State} (a : Spares i s t) (b : Spares i t u) : Spares i s u where
  running := b.running
  sect h := by
    have st := a.sect h
    rw [b.sect (by rwa [st]), st]
  belongs k := (b.belongs k).trans (a.belongs k)
  channel k hk := (a.channel k hk).trans (b.channel k ((a.belongs k).trans hk))
  cell e he := by
    obtain ⟨free, kept⟩ := a.cell e he
    obtain ⟨free', kept'⟩ := b.cell e free
    exact ⟨free', kept'.trans kept⟩

theorem SparesInput.refl {s : State} (i : Fin 4) (run : Running s) : SparesInput i s s := ⟨.refl i run, rfl, rfl⟩

theorem SparesInput.trans {i : Fin 4} {s t u : State} (a : SparesInput i s t) (b : SparesInput i t u) : SparesInput i s u :=
  ⟨a.toSpares.trans b.toSpares, b.thetaX.trans a.thetaX, b.delta.trans a.delta⟩

theorem OffGear.running {s t : State} (o : OffGear s t) (run : Running s) : Running t :=
  ⟨o.noCut run.1, by rw [o.nodeState]; exact run.2⟩

/-- What changes nothing of the gear unit spares every section. -/
theorem OffGear.spares {s t : State} (o : OffGear s t) (i : Fin 4) (run : Running s) : SparesInput i s t where
  running := o.running run
  sect _ := by rw [o.gu]
  belongs _ := by rw [o.gu]
  channel _ _ := by rw [o.gu]; exact .refl _
  cell e he := ⟨by unfold NotElsewhere; rw [o.gu]; exact he, by rw [o.records]⟩
  thetaX := by rw [o.gu]
  delta := by rw [o.gu]

/-! ### Edits of sections and channels -/

/-- An edit of channels that leaves those of section `i` alike. -/
theorem mapChannels_spares {i : Fin 4} {f : Fin 12 → Channel → Channel} {s : State} (run : Running s)
    (belongs : ∀ k c, (f k c).sect = c.sect) (alike : ∀ k c, c.sect = some i → Alike c (f k c)) :
    SparesInput i s (mapChannels f s) where
  running := run
  sect _ := rfl
  belongs k := by simp only [mapChannels_gu, mapV_get, belongs]
  channel k hk := by simp only [mapChannels_gu, mapV_get]; exact alike k _ hk
  cell _ h := ⟨h, rfl⟩
  thetaX := rfl
  delta := rfl

/-- An edit of the ACTIVE channels of another section. -/
theorem onActive_spares {i j : Fin 4} (ne : j ≠ i) {f : Channel → Channel} {s : State} (run : Running s)
    (belongs : ∀ c, (f c).sect = c.sect) : SparesInput i s (onActive j f s) := by
  refine mapChannels_spares run (fun _ c => ?_) (fun _ c hc => ?_)
  · split
    · exact belongs c
    · rfl
  · have other : Channel.activeOf j c = false := by
      simp only [Channel.activeOf, Channel.isOf, hc, Option.some.injEq, ne.symm, decide_false, Bool.false_and]
    simp only [other, Bool.false_eq_true, if_false]
    exact .refl c

/-- An edit of another section by which no cell comes to wait. -/
theorem modSect_spares {i j : Fin 4} (ne : j ≠ i) {f : Sect → Sect} {s : State} (run : Running s)
    (waits : ∀ e x, (f x).Waits e → x.Waits e) : SparesInput i s (modSect j f s) where
  running := run
  sect _ := by simp only [modSect_gu, modV_get, if_neg ne.symm]
  belongs _ := rfl
  channel _ _ := .refl _
  cell e he := by
    refine ⟨fun l hl w => ?_, rfl⟩
    simp only [modSect_gu, modV_get] at w
    split at w
    next h => exact he j ne (waits e _ w)
    next h => exact he l hl w
  thetaX := rfl
  delta := rfl

/-! ### Cells that end -/

theorem finishCell_gu (c : Fin 16) (r : Result) (s : State) : (finishCell c r s).gu = s.gu := by rw [finishCell_frame]

theorem finishCell_running {c : Fin 16} {r : Result} {s : State} (run : Running s) : Running (finishCell c r s) := by
  rw [finishCell_frame]; exact run

/-- Only the record of the cell that ends is another. -/
theorem finishCell_records_ne {c e : Fin 16} (ne : e ≠ c) (r : Result) (s : State) :
    (finishCell c r s).wc.records[e] = s.wc.records[e] := by
  rw [finishCell_records]
  exact Vector.getElem_set_ne _ _ fun h => ne (Fin.ext h.symm)

/-- The end of a cell that another section had waiting when the stage began. -/
theorem SparesInput.finishCell {i : Fin 4} {s t : State} (a : SparesInput i s t) {c : Fin 16} (r : Result)
    (busy : ¬ NotElsewhere i s c) : SparesInput i s (finishCell c r t) where
  running := finishCell_running a.running
  sect := by rw [finishCell_gu]; exact a.sect
  belongs := by rw [finishCell_gu]; exact a.belongs
  channel := by rw [finishCell_gu]; exact a.channel
  cell e he := by
    obtain ⟨free, kept⟩ := a.cell e he
    have ne : e ≠ c := fun h => busy (h ▸ he)
    exact ⟨by unfold NotElsewhere; rw [finishCell_gu]; exact free, (finishCell_records_ne ne r t).trans kept⟩
  thetaX := by rw [finishCell_gu]; exact a.thetaX
  delta := by rw [finishCell_gu]; exact a.delta

theorem SparesInput.finishOpt {i : Fin 4} {s t : State} (a : SparesInput i s t) {c : Option (Fin 16)} (r : Result)
    (busy : ∀ e, c = some e → ¬ NotElsewhere i s e) : SparesInput i s (finishOpt c r t) := by
  unfold Machine.finishOpt
  split
  · exact a
  next e => exact a.finishCell r (busy e rfl)

theorem SparesInput.finishAll {i : Fin 4} {s t : State} (a : SparesInput i s t) {cs : List (Fin 16)} (r : Result)
    (busy : ∀ e ∈ cs, ¬ NotElsewhere i s e) : SparesInput i s (finishAll cs r t) := by
  unfold Machine.finishAll
  induction cs generalizing t with
  | nil => exact a
  | cons c cs ih =>
    exact ih (a.finishCell r (busy c List.mem_cons_self)) fun e he => busy e (List.mem_cons_of_mem c he)

/-! ### The level acts (R41, R42) -/

/-- R42: the jog demand falls; only a JOGGING section changes. -/
theorem stopAction_spares (i : Fin 4) {s : State} (run : Running s) : SparesInput i s (stopAction s) where
  running := run
  sect h := by simp only [stopAction, mapSects_gu, mapV_get, if_neg h]
  belongs _ := rfl
  channel _ _ := .refl _
  cell e he := by
    refine ⟨fun j hj w => he j hj ?_, rfl⟩
    simp only [stopAction, mapSects_gu, mapV_get] at w
    split at w
    · exact w
    · exact w
  thetaX := rfl
  delta := rfl

/-- Below CUT a rise of the level lets the jog demands fall at most. -/
theorem react_spares (i : Fin 4) (before : Level) {s : State} (run : Running s) : SparesInput i s (react before s) := by
  have below : effLevel s ≠ .cut := (noCut_iff s).1 run.1
  unfold react
  simp only [below, false_and, if_false]
  split
  · exact stopAction_spares i run
  · exact .refl i run

theorem repeatActions_spares (i : Fin 4) {s : State} (run : Running s) : SparesInput i s (repeatActions s) := by
  have below : effLevel s ≠ .cut := (noCut_iff s).1 run.1
  unfold repeatActions
  simp only [below, if_false]
  split
  · exact stopAction_spares i run
  · exact .refl i run

/-- A change of the level's terms that is none of the gear unit, and what the level's rise then does. -/
theorem reacting_spares (i : Fin 4) {f : State → State} {s : State} (run : Running s) (o : OffGear s (f s)) :
    SparesInput i s (reacting f s) :=
  (o.spares i run).trans (react_spares i _ (o.running run))

/-- R88, "becomes present", of a class below CUT. -/
theorem reportPresent_spares (i : Fin 4) (kind : TripKind) (index : Nat) {cls : TripClass} (hc : cls ≠ .cut) {s : State}
    (run : Running s) : SparesInput i s (reportPresent kind index cls s) := by
  have put : OffGear s (setConds (putCond { kind := kind, index := index, cls := cls }) s) := .putCond hc s
  unfold reportPresent
  refine reacting_spares i run (.ite put ?_)
  split
  · exact put.trans (.createOwn hc _)
  · exact .ite (put.trans (.updateAndBurst (fun _ _ => hc) _ _)) put

/-! ### The ring at the compute event (R78, R81, R82) -/

theorem alignWrap_spares (i : Fin 4) (p : Port) {s : State} (run : Running s) : SparesInput i s (alignWrap p s) := by
  unfold alignWrap
  dsimp only
  split
  · exact reportPresent_spares i _ _ (by decide) run
  · exact (OffGear.ite (.reportGone _ _ s) (.refl s)).spares i run

theorem setMode_spares (i : Fin 4) (m : RingMode) {s : State} (run : Running s) : SparesInput i s (setMode m s) := by
  unfold setMode
  split
  · exact .refl i run
  · have routed : OffGear s (setAttn .ring { s with ri := reroute m (nowOf s) s.ri }) := ⟨rfl, rfl, rfl, id⟩
    have first := (routed.spares i run).trans (alignWrap_spares i portA (routed.running run))
    exact first.trans (alignWrap_spares i portB first.running)

theorem rejoin_spares (i : Fin 4) {s : State} (run : Running s) : SparesInput i s (rejoin s) := by
  unfold rejoin
  split
  · split
    · exact setMode_spares i _ run
    · split
      · exact setMode_spares i _ run
      · exact .refl i run
  · exact .refl i run

theorem testHealMark_spares (i : Fin 4) {s : State} (run : Running s) : SparesInput i s (testHealMark s) := by
  have cleared : OffGear s { s with ri := { s.ri with healMark := false } } := ⟨rfl, rfl, rfl, id⟩
  have stands := cleared.spares i run
  have run' := cleared.running run
  have healed (p : Port) : SparesInput i s
      (if upLong { s with ri := { s.ri with healMark := false } } p then
        setMode .through { s with ri := { s.ri with healMark := false } }
      else { s with ri := { s.ri with healMark := false } }) := by
    split
    · exact stands.trans (setMode_spares i _ run')
    · exact stands
  unfold testHealMark
  dsimp only
  split
  · split
    · exact healed portA
    · exact healed portB
    · exact stands
    · exact stands
  · exact stands

theorem ringEvent_spares (i : Fin 4) {s : State} (run : Running s) : SparesInput i s (ringEvent s) := by
  have healed := testHealMark_spares i run
  have joined := healed.trans (rejoin_spares i healed.running)
  exact joined.trans (((OffGear.queueProbe portA _).trans (.queueProbe portB _)).spares i joined.running)

/-! ### The timetable (R49, R52) -/

/-- An edit of one channel's exchange marks. -/
theorem modChannel_spares (i : Fin 4) (k : Fin 12) {f : Channel → Channel} {s : State} (run : Running s)
    (alike : ∀ c, Alike c (f c)) : SparesInput i s (modChannel k f s) where
  running := run
  sect _ := rfl
  belongs l := by
    simp only [modChannel_gu, modV_get]
    split
    next h => rw [h]; exact (alike _).sect
    next => rfl
  channel l _ := by
    simp only [modChannel_gu, modV_get]
    split
    next h => rw [h]; exact alike _
    next => exact .refl _
  cell _ h := ⟨h, rfl⟩
  thetaX := rfl
  delta := rfl

theorem markLate_spares (i : Fin 4) (k : Fin 12) {s : State} (run : Running s) : SparesInput i s (markLate k s) :=
  have counted : OffGear s { s with dlc := { s.dlc with late := s.dlc.late + 1 } } := ⟨rfl, rfl, rfl, id⟩
  (counted.spares i run).trans (modChannel_spares i k run fun c => (rfl : Alike c { c with late := true, hist0 := .notSent }))

theorem layOut_spares (i : Fin 4) (t0 issue : Int) (n : Nat) (ks : List (Fin 12)) {s : State} (run : Running s) :
    SparesInput i s (layOut t0 issue n ks s) := by
  induction ks generalizing n s with
  | nil => exact .refl i run
  | cons k ks ih =>
    have slotted (d : DriveSlot) : OffGear s { s with dlc := { s.dlc with slots := s.dlc.slots ++ [d] } } :=
      ⟨rfl, rfl, rfl, id⟩
    unfold layOut
    dsimp only
    split
    · have placed := ((slotted (slotOf s k (t0 + (n : Int) * 12000))).spares i run).trans
        (modChannel_spares i k run fun c => (rfl : Alike c { c with late := false }))
      exact placed.trans (ih (n + 1) placed.running)
    · have late := markLate_spares i k run
      exact late.trans (ih (n + 1) late.running)

theorem shiftHistory_alike (c : Channel) : Alike c c.shiftHistory := by
  unfold Channel.shiftHistory
  split <;> rfl

theorem drawTimetable_spares (i : Fin 4) (lineFree : Time) {s : State} (run : Running s) :
    SparesInput i s (drawTimetable lineFree s) := by
  unfold drawTimetable
  split
  · exact .refl i run
  · have cleared : OffGear s { s with dlc := { s.dlc with slots := [] } } := ⟨rfl, rfl, rfl, id⟩
    have shifted := (cleared.spares i run).trans
      (mapChannels_spares run (f := fun _ c => c.shiftHistory) (fun _ c => (shiftHistory_alike c).sect)
        fun _ c _ => shiftHistory_alike c)
    have drawn (u : State) (busy : Bool) : OffGear u { u with dlc := { u.dlc with busyStart := busy } } := ⟨rfl, rfl, rfl, id⟩
    exact (shifted.trans ((drawn _ _).spares i shifted.running)).trans (layOut_spares i _ _ _ _ shifted.running)

/-! ### The gear input (R13 to R19) -/

/-- Forming a gear input touches neither sections nor channels. -/
theorem formGear_spares (i : Fin 4) (theta : Word) (v : Int) (restart : Bool) {s : State} (run : Running s) :
    Spares i s (formGear theta v restart s) :=
  ⟨run, fun _ => rfl, fun _ => rfl, fun _ _ => .refl _, fun _ h => ⟨h, rfl⟩⟩

theorem setNodeState_spares (i : Fin 4) {n : NodeState} (hn : n ≠ .config) {s : State} (run : Running s) :
    Spares i s (setNodeState n s) := by
  unfold setNodeState
  split
  · exact .refl i run
  · exact ⟨⟨run.1, hn⟩, fun _ => rfl, fun _ => rfl, fun _ _ => .refl _, fun _ h => ⟨h, rfl⟩⟩

theorem countMissed_offGear (s : State) : OffGear s (countMissed s) := ⟨rfl, rfl, rfl, id⟩

/-- R15: the entry into ISOLATED reports BEAT_LOST, a STOP, and forces no section. -/
theorem isolate_spares (i : Fin 4) {s : State} (run : Running s) : Spares i s (isolate s) := by
  have isolated := setNodeState_spares i (n := .isolated) (by decide) run
  have unlocks : OffGear (setNodeState .isolated s) (toIsolated s) := ⟨rfl, rfl, rfl, id⟩
  have unlocked := isolated.trans (unlocks.spares i isolated.running).toSpares
  have slows : Spares i (toIsolated s) (slowSubstitute (toIsolated s)) := formGear_spares i _ _ _ unlocked.running
  have slowed := unlocked.trans slows
  exact slowed.trans (reportPresent_spares i .beatLost 0 (by decide) slowed.running).toSpares

theorem followBeat_spares (i : Fin 4) (b : TakenBeat) {s : State} (run : Running s) : Spares i s (followBeat b s) := by
  unfold followBeat
  split
  · split
    · exact formGear_spares i _ _ _ run
    · exact isolate_spares i run
  · exact formGear_spares i _ _ _ run

theorem missBeat_spares (i : Fin 4) {s : State} (run : Running s) : Spares i s (missBeat s) := by
  have counted := ((countMissed_offGear s).spares i run).toSpares
  unfold missBeat
  dsimp only
  split
  · exact counted.trans (isolate_spares i counted.running)
  · have held := counted.trans (setNodeState_spares i (n := .holdover) (by decide) counted.running)
    exact held.trans (formGear_spares i _ _ _ held.running)

theorem settlePassive_eq {s : State} (h : s.gu.leftIsolated = false) : settlePassive s = s := by
  simp [settlePassive, h]

theorem endsIsolation_eq_false {l : LineState} (h : l = .running ∨ l = .stopping) : endsIsolation l = false := by
  rcases h with rfl | rfl <;> rfl

theorem SectionsRun.running {s : State} (h : SectionsRun s) : Running s := ⟨(noCut_iff s).2 h.1, h.2.1⟩

theorem OffGear.sectionsRun {s t : State} (o : OffGear s t) (h : SectionsRun s) : SectionsRun t := by
  obtain ⟨below, config, left, leaves⟩ := h
  refine ⟨(noCut_iff t).1 (o.noCut ((noCut_iff s).2 below)), ?_, ?_, ?_⟩
  · rw [o.nodeState]; exact config
  · rw [o.gu]; exact left
  · rw [o.nodeState, o.gu]; exact leaves

/-- In each node state the gear input is formed, or not, without an action on a section where the sections run. -/
theorem axisEvent_spares (i : Fin 4) {s : State} (h : SectionsRun s) : Spares i s (axisEvent s) := by
  have run := h.running
  obtain ⟨-, config, left, leaves⟩ := h
  let s₀ : State := { s with gu := { s.gu with formedNow := false, restarted := false } }
  have run₀ : Running s₀ := run
  have begun : Spares i s s₀ := ⟨run, fun _ => rfl, fun _ => rfl, fun _ _ => .refl _, fun _ h => ⟨h, rfl⟩⟩
  have counted := ((countMissed_offGear s₀).spares i run₀).toSpares
  refine begun.trans ?_
  unfold axisEvent
  simp only [if_neg config]
  split
  · exact formGear_spares i _ _ _ run₀
  · split
    next => exact .refl i run₀
    next => exact .refl i run₀
    next =>
      split
      · have online := setNodeState_spares i (n := .online) (by decide) run₀
        exact online.trans (formGear_spares i _ _ _ online.running)
      · exact .refl i run₀
    next => exact followBeat_spares i _ run₀
    next => exact missBeat_spares i run₀
    next b _ _ =>
      have online := setNodeState_spares i (n := .online) (by decide) run₀
      exact online.trans (followBeat_spares i b online.running)
    next => exact missBeat_spares i run₀
    next b isolated taken =>
      simp only [endsIsolation_eq_false (leaves isolated b taken), Bool.false_eq_true, if_false]
      exact formGear_spares i _ _ _ run₀
    next => exact counted.trans (formGear_spares i _ _ _ counted.running)
    next b _ _ =>
      rw [settlePassive_eq (by exact left)]
      exact followBeat_spares i b run₀
    next =>
      rw [settlePassive_eq (by exact left)]
      exact counted.trans (formGear_spares i _ _ _ counted.running)

/-! ### The stages of the other sections (R26) -/

section
variable {i j : Fin 4} {s t : State}

theorem SparesInput.onActive (a : SparesInput i s t) (ne : j ≠ i) {f : Channel → Channel}
    (belongs : ∀ c, (f c).sect = c.sect) : SparesInput i s (onActive j f t) := a.trans (onActive_spares ne a.running belongs)

/-- R36: the ENGAGE of another section that completes. -/
theorem completeEngage_spares (ne : j ≠ i) (run : Running s) : SparesInput i s (completeEngage j s) := by
  unfold completeEngage
  dsimp only
  split
  · refine (modSect_spares ne run fun e x w => ?_).finishOpt _ fun e he free => free j ne (.inl he)
    exact w.elim (fun h => nomatch h) .inr
  · exact .refl i run

theorem SparesInput.completeEngage (a : SparesInput i s t) (ne : j ≠ i) : SparesInput i s (completeEngage j t) :=
  a.trans (completeEngage_spares ne a.running)

/-- R37, R38, R40: the end of another section's ramp. -/
theorem SparesInput.rampEnd (a : SparesInput i s t) (ne : j ≠ i) : SparesInput i s (rampEnd j t) := by
  have held : SparesInput i t (modSect j (fun x => { x with state := .held, disengageCells := [] }) t) :=
    modSect_spares ne a.running fun e x w => w.elim .inl fun h => nomatch h
  unfold Machine.rampEnd
  refine a.trans ((held.onActive ne fun c => ?_).finishAll _ fun e he free => free j ne (.inr he))
  rfl

theorem stageRelation_spares (ne : j ≠ i) (run : Running s) : SparesInput i s (stageRelation j s) := by
  have related := modSect_spares ne (f := Sect.relate s.gu.thetaX) run fun _ _ w => w
  unfold stageRelation
  refine (related.onActive ne fun c => ?_).completeEngage ne
  rfl

theorem stageGeared_spares (ne : j ≠ i) (delta : Int) (run : Running s) : SparesInput i s (stageGeared j delta s) := by
  have moved := modSect_spares ne (f := fun x => Sect.slew (Sect.increment delta x)) run fun _ _ w => w
  unfold stageGeared
  have slewed := moved.trans (mapChannels_spares moved.running
    (f := fun _ c => if Channel.isOf j c then
      Channel.slew (modSect j (fun x => Sect.slew (Sect.increment delta x)) s).gu.sections[j].trimStep c else c)
    (fun _ c => ?_) fun _ c hc => ?_)
  · exact (slewed.onActive ne fun c => by split <;> rfl).completeEngage ne
  · split <;> rfl
  · have other : Channel.isOf j c = false := by
      simp only [Channel.isOf, hc, Option.some.injEq, ne.symm, decide_false]
    simp only [other, Bool.false_eq_true, if_false]
    exact .refl c

theorem stageJogging_spares (ne : j ≠ i) (run : Running s) : SparesInput i s (stageJogging j s) := by
  have moved := (modSect_spares ne (f := Sect.jogRamp) run fun _ _ w => w).onActive ne
    (f := Channel.moveBy (modSect j Sect.jogRamp s).gu.sections[j].jogSpeed) fun _ => rfl
  unfold stageJogging
  dsimp only
  split
  · exact moved.rampEnd ne
  · exact moved

theorem stageReleasing_spares (ne : j ≠ i) (run : Running s) : SparesInput i s (stageReleasing j s) := by
  have moved := (modSect_spares ne (f := Sect.releaseRamp) run fun _ _ w => w).onActive ne
    (f := Channel.moveBy (modSect j Sect.releaseRamp s).gu.sections[j].u) fun _ => rfl
  unfold stageReleasing
  dsimp only
  split
  · exact moved.rampEnd ne
  · exact moved

/-- The stage of one section spares every other one. -/
theorem stageSection_spares (ne : j ≠ i) (delta : Int) (run : Running s) : SparesInput i s (stageSection delta j s) := by
  unfold stageSection
  split
  · exact .refl i run
  · exact onActive_spares ne run fun _ => rfl
  · exact stageJogging_spares ne run
  · exact stageReleasing_spares ne run
  · split
    · exact stageRelation_spares ne run
    · exact stageGeared_spares ne delta run
  · exact stageGeared_spares ne delta run

/-- The stages of any sections but one spare it. -/
theorem stages_spares (delta : Int) {js : List (Fin 4)} (others : i ∉ js) (run : Running s) :
    SparesInput i s (js.foldl (fun s j => stageSection delta j s) s) := by
  induction js generalizing s with
  | nil => exact .refl i run
  | cons j js ih =>
    rw [List.mem_cons, not_or] at others
    have first := stageSection_spares (Ne.symm others.1) delta run
    exact first.trans (ih others.2 first.running)

end

end Sys2Proof.Machine
end

section
/-! PROOFS. The compute event as one section sees it: what stands ahead of its stage and behind it (R26, R31, R32), and the
completion of its ENGAGE (R36). -/

namespace Sys2Proof.Machine

/-! ### The compute event as one section sees it -/

theorem Alike.shift {c d : Channel} (h : Alike c d) : Alike c.shift d.shift := by
  unfold Alike at h
  rw [h]
  unfold Channel.shift
  split <;> rfl

theorem Alike.follow {c d : Channel} (h : Alike c d) : Alike c.follow d.follow := by
  unfold Alike at h
  rw [h]
  unfold Channel.follow
  dsimp only
  split <;> rfl

theorem shift_sect (c : Channel) : c.shift.sect = c.sect := by
  unfold Channel.shift
  split <;> rfl

theorem follow_sect (c : Channel) : c.follow.sect = c.sect := by
  unfold Channel.follow
  split <;> rfl

/-- What the event does to section `i` ahead of its stage: the setpoint history of its channels moves back (R32), no more. -/
structure Enters (i : Fin 4) (s u : State) : Prop where
  running : Running u
  sect : s.gu.sections[i].state ≠ .jogging → u.gu.sections[i] = s.gu.sections[i]
  belongs : ∀ k : Fin 12, u.gu.channels[k].sect = s.gu.channels[k].sect
  channel : ∀ k : Fin 12, s.gu.channels[k].sect = some i → Alike s.gu.channels[k].shift u.gu.channels[k]
  cell : ∀ e, NotElsewhere i s e → NotElsewhere i u e ∧ u.wc.records[e] = s.wc.records[e]

/-- What the event does to section `i` behind its stage: the channels that follow their drives do so (R31), no more. -/
structure Leaves (i : Fin 4) (v t : State) : Prop where
  sect : v.gu.sections[i].state ≠ .jogging → t.gu.sections[i] = v.gu.sections[i]
  channel : ∀ k : Fin 12, v.gu.channels[k].sect = some i → Alike v.gu.channels[k].follow t.gu.channels[k]
  cell : ∀ e, NotElsewhere i v e → t.wc.records[e] = v.wc.records[e]
  thetaX : t.gu.thetaX = v.gu.thetaX
  delta : t.gu.delta = v.gu.delta

theorem enters_of_spares {i : Fin 4} {s a u : State} (before : Spares i s a)
    (after : Spares i (mapChannels (fun _ c => Channel.shift c) a) u) : Enters i s u where
  running := after.running
  sect h := by
    have same := before.sect h
    exact (after.sect (by simpa only [mapChannels_gu, same] using h)).trans same
  belongs k := by
    refine (after.belongs k).trans (Eq.trans ?_ (before.belongs k))
    simp only [mapChannels_gu, mapV_get, shift_sect]
  channel k hk := by
    have member := (before.belongs k).trans hk
    have shifted := after.channel k
    simp only [mapChannels_gu, mapV_get, shift_sect] at shifted
    exact (before.channel k hk).shift.trans (shifted member)
  cell e he := by
    obtain ⟨free, kept⟩ := before.cell e he
    obtain ⟨free', kept'⟩ := after.cell e free
    exact ⟨free', kept'.trans kept⟩

theorem leaves_of_spares {i : Fin 4} {v b t : State} (before : SparesInput i v b)
    (after : SparesInput i (mapChannels (fun _ c => Channel.follow c) b) t) : Leaves i v t where
  sect h := by
    have same := before.sect h
    exact (after.sect (by simpa only [mapChannels_gu, same] using h)).trans same
  channel k hk := by
    have member := (before.belongs k).trans hk
    have followed := after.channel k
    simp only [mapChannels_gu, mapV_get, follow_sect] at followed
    exact (before.channel k hk).follow.trans (followed member)
  cell e he := by
    obtain ⟨free, kept⟩ := before.cell e he
    exact (after.cell e free).2.trans kept
  thetaX := after.thetaX.trans before.thetaX
  delta := after.delta.trans before.delta

/-- The stage of a section spares some other one: it leaves the part running, and the gear input stands. -/
theorem stageSection_keeps (i : Fin 4) (delta : Int) {s : State} (run : Running s) :
    Running (stageSection delta i s) ∧ (stageSection delta i s).gu.thetaX = s.gu.thetaX
      ∧ (stageSection delta i s).gu.delta = s.gu.delta := by
  obtain ⟨j, ne⟩ : ∃ j : Fin 4, i ≠ j := ⟨i + 1, by omega⟩
  have other := stageSection_spares ne delta run
  exact ⟨other.running, other.thetaX, other.delta⟩

/-- The sections ahead of one, that one, and those behind it. -/
theorem indices_split {n : Nat} (i : Fin n) : ∃ pre post, indices n = pre ++ i :: post ∧ i ∉ pre ∧ i ∉ post := by
  obtain ⟨pre, post, split⟩ := List.append_of_mem (List.mem_finRange i)
  have distinct : (pre ++ i :: post).Nodup := split ▸ List.nodup_finRange n
  obtain ⟨-, behind, apart⟩ := List.nodup_append.1 distinct
  exact ⟨pre, post, split, fun h => apart i h i List.mem_cons_self rfl, (List.nodup_cons.1 behind).1⟩

/-- R26: the setpoints of all channels, seen from section `i`. -/
theorem computeSetpoints_stage (i : Fin 4) {s : State} (run : Running s) :
    ∃ u b, SparesInput i (mapChannels (fun _ c => Channel.shift c) s) u
      ∧ SparesInput i (stageSection u.gu.delta i u) b
      ∧ computeSetpoints s.gu.delta s = mapChannels (fun _ c => Channel.follow c) b := by
  obtain ⟨pre, post, order, ahead, behind⟩ := indices_split i
  have run₀ : Running (mapChannels (fun _ c => Channel.shift c) s) := run
  have entered := stages_spares s.gu.delta ahead run₀
  have staged := (stageSection_keeps i s.gu.delta entered.running).1
  have left := stages_spares s.gu.delta behind staged
  have delta := entered.delta
  simp only [mapChannels_gu] at delta
  refine ⟨_, _, entered, by rw [delta]; exact left, ?_⟩
  simp only [computeSetpoints, order, List.foldl_append, List.foldl_cons]

/-- What comes before the Gear Unit at a compute event (R17, R87, R98). -/
def beforeGear (s : State) : State := tripEvent (applyHoldover { s with ct := { s.ct with raisedCo := true } })

/-- What follows the Gear Unit at a compute event (R49, R81, R95, R115, R149, R159). -/
def afterGear (lineFree : Time) (s : State) : State :=
  queueRefresh (ringEvent (countIdle (startViewFrames (planEvent (drawTimetable lineFree s)))))

theorem raiseCompute_eq (lineFree : Time) (s : State) :
    raiseCompute lineFree s = afterGear lineFree (gearEvent (beforeGear s)) := rfl

theorem OffGear.beforeGear {s : State} (h : NoCut s) : OffGear s (beforeGear s) := by
  have raised : OffGear s { s with ct := { s.ct with raisedCo := true } } := ⟨rfl, rfl, rfl, id⟩
  have early := raised.trans (.applyHoldover _)
  exact early.trans (.tripEvent (early.noCut h))

theorem afterGear_spares (i : Fin 4) (lineFree : Time) {s : State} (run : Running s) :
    SparesInput i s (afterGear lineFree s) := by
  have drawn := drawTimetable_spares i lineFree run
  have views : OffGear (drawTimetable lineFree s) (countIdle (startViewFrames (planEvent (drawTimetable lineFree s)))) :=
    ((OffGear.planEvent _).trans (.startViewFrames _)).trans (.countIdle _)
  have counted := drawn.trans (views.spares i drawn.running)
  have ring := counted.trans (ringEvent_spares i counted.running)
  exact ring.trans ((OffGear.queueRefresh _).spares i ring.running)

/-- The gear event outside CONFIG. -/
theorem gearEvent_eq {s : State} (h : (repeatActions (axisEvent s)).ct.nodeState ≠ .config) :
    gearEvent s = computeSetpoints (repeatActions (axisEvent s)).gu.delta (repeatActions (axisEvent s)) := if_neg h

/-- The compute event whose time has come. -/
theorem exec_compute {now : Time} (lineFree : Time) {s : State} (comes : ComputeComes now s) :
    exec (.compute now lineFree) s = .next (raiseCompute lineFree (advance now s)) := by
  obtain ⟨reset, intake, notYet, due⟩ := comes
  have ready : (!(advance now s).wc.resetting && computeReady (advance now s)) = true := by
    simp only [computeReady, computeDue, advance_wc, advance_ct, reset, intake, notYet]
    simpa using due
  show Host.Outcome.next _ = _
  simp only [ready, if_true]

/-- Raised while the sections run, the compute event is the stage of each section with nothing else done to it. -/
theorem compute_stage {now : Time} (lineFree : Time) {s : State} (i : Fin 4) (comes : ComputeComes now s)
    (runs : SectionsRun s) :
    ∃ u t, exec (.compute now lineFree) s = .next t ∧ Enters i s u ∧ Leaves i (stageSection t.gu.delta i u) t
      ∧ t.gu.thetaX = u.gu.thetaX := by
  have begins := OffGear.advance now s
  have early := begins.trans (.beforeGear (begins.noCut runs.running.1))
  have formed := (early.spares i runs.running).toSpares.trans (axisEvent_spares i (early.sectionsRun runs))
  have acted := formed.trans (repeatActions_spares i formed.running).toSpares
  obtain ⟨u, b, entered, left, setpoints⟩ := computeSetpoints_stage i acted.running
  have enters := enters_of_spares acted entered.toSpares
  have leaves := leaves_of_spares left (afterGear_spares i lineFree left.running)
  obtain ⟨-, thetaX, delta⟩ := stageSection_keeps i u.gu.delta enters.running
  have answers := exec_compute lineFree comes
  rw [raiseCompute_eq, gearEvent_eq acted.running.2, setpoints] at answers
  exact ⟨u, _, answers, enters, by rw [leaves.delta, delta]; exact leaves, leaves.thetaX.trans thetaX⟩

/-! ### The completion of an ENGAGE (R36) -/

theorem finishOpt_gu (c : Option (Fin 16)) (r : Result) (s : State) : (finishOpt c r s).gu = s.gu := by
  unfold finishOpt
  split
  · rfl
  · exact finishCell_gu _ r s

/-- The completion test ends the ENGAGE or leaves the part as it is. -/
theorem completeEngage_cases (i : Fin 4) (s : State) :
    completeEngage i s = s ∨ completeEngage i s = finishOpt s.gu.sections[i].engageCell
      (okData (le32 s.gu.sections[i].relPhi ++ leBytes 2 s.gu.sections[i].relR))
      (modSect i (fun x => { x with state := .engaged, engageCell := none }) s) := by
  unfold completeEngage
  dsimp only
  split
  · exact .inr rfl
  · exact .inl rfl

theorem completeEngage_channels (i : Fin 4) (s : State) : (completeEngage i s).gu.channels = s.gu.channels := by
  rcases completeEngage_cases i s with h | h
  · rw [h]
  · rw [h, finishOpt_gu]; rfl

theorem completeEngage_sections_ne {i j : Fin 4} (ne : j ≠ i) (s : State) :
    (completeEngage i s).gu.sections[j] = s.gu.sections[j] := by
  rcases completeEngage_cases i s with h | h
  · rw [h]
  · rw [h, finishOpt_gu, modSect_gu, modV_get, if_neg ne]

theorem activeOf_iff {i : Fin 4} {c : Channel} : Channel.activeOf i c = true ↔ c.sect = some i ∧ c.state = .active := by
  simp only [Channel.activeOf, Channel.isOf, Bool.and_eq_true, decide_eq_true_eq]

/-- A section that is not ENGAGING has nothing to complete. -/
theorem completeEngage_other {i : Fin 4} {s : State} (h : s.gu.sections[i].state ≠ .engaging) : completeEngage i s = s :=
  if_neg fun e => h e.1

/-- No ACTIVE channel of section `i` has an engage difference left. -/
def CaughtUp (i : Fin 4) (s : State) : Prop :=
  ∀ k : Fin 12, Channel.activeOf i s.gu.channels[k] = true → s.gu.channels[k].c = 0

/-- What the completion test makes of an ENGAGING section whose relation is set and whose channels have all joined. -/
structure Completed (i : Fin 4) (z v : State) : Prop where
  sect : v.gu.sections[i] =
    { z.gu.sections[i] with state := v.gu.sections[i].state, engageCell := v.gu.sections[i].engageCell }
  state : v.gu.sections[i].state = .engaging ∨ v.gu.sections[i].state = .engaged
  engaged : v.gu.sections[i].state = .engaged ↔ CaughtUp i z
  waits : v.gu.sections[i].state = .engaging → v.gu.sections[i].engageCell = z.gu.sections[i].engageCell
  ends : v.gu.sections[i].state = .engaged → v.gu.sections[i].engageCell = none
    ∧ ∀ e, z.gu.sections[i].engageCell = some e →
        EndsWith z v e (resultOk (le32 z.gu.sections[i].relPhi ++ leBytes 2 z.gu.sections[i].relR))

theorem all_channels_iff {p : Channel → Bool} (v : Vector Channel 12) :
    v.toList.all p = true ↔ ∀ k : Fin 12, p v[k] = true := by
  rw [List.all_eq_true]
  constructor
  · exact fun h k => h _ (Vector.mem_toList_iff.2 (Vector.getElem_mem k.isLt))
  · intro h c hc
    obtain ⟨k, hk, rfl⟩ := Vector.mem_iff_getElem.1 (Vector.mem_toList_iff.1 hc)
    exact h ⟨k, hk⟩

theorem finishCell_endsWith (e : Fin 16) (r : Result) (s : State) : EndsWith s (finishCell e r s) e r := by
  intro x hx
  rw [finishCell_records]
  simp only [Fin.getElem_fin] at hx ⊢
  rw [Vector.getElem_set_self, hx]
  exact ⟨_, rfl, rfl, rfl, rfl⟩

theorem completeEngage_completed {i : Fin 4} {z : State} (engaging : z.gu.sections[i].state = .engaging)
    (related : z.gu.sections[i].mark = false)
    (joined : ∀ k : Fin 12, Channel.activeOf i z.gu.channels[k] = true → z.gu.channels[k].join = false) :
    Completed i z (completeEngage i z) := by
  have test : (z.gu.channels.toList.all (fun c => !Channel.activeOf i c || (decide (c.c = 0) && !c.join))) = true
      ↔ CaughtUp i z := by
    rw [all_channels_iff]
    refine forall_congr' fun k => ?_
    cases active : Channel.activeOf i z.gu.channels[k] with
    | false => simp
    | true => simpa using fun _ => joined k active
  by_cases up : CaughtUp i z
  · have done : completeEngage i z = finishOpt z.gu.sections[i].engageCell
        (okData (le32 z.gu.sections[i].relPhi ++ leBytes 2 z.gu.sections[i].relR))
        (modSect i (fun x => { x with state := .engaged, engageCell := none }) z) :=
      if_pos ⟨engaging, related, test.2 up⟩
    have sect : (completeEngage i z).gu.sections[i] = { z.gu.sections[i] with state := .engaged, engageCell := none } := by
      rw [done, finishOpt_gu, modSect_gu, modV_get, if_pos rfl]
    exact {
      sect := by rw [sect]
      state := .inr (by rw [sect])
      engaged := iff_of_true (by rw [sect]) up
      waits := fun h => by rw [sect] at h; cases h
      ends := fun _ => ⟨by rw [sect], fun e he => by rw [done, he]; exact finishCell_endsWith e _ (modSect i _ z)⟩ }
  · have same : completeEngage i z = z := if_neg fun h => up (test.1 h.2.2)
    rw [same]
    exact {
      sect := rfl
      state := .inl engaging
      engaged := iff_of_false (by rw [engaging]; decide) up
      waits := fun _ => rfl
      ends := fun h => absurd (engaging.symm.trans h) (by decide) }

/-! ### Channels ahead of and behind the stage -/

/-- Two channel records agree in what the Gear Unit moves. -/
structure SameMotion (a b : Channel) : Prop where
  state : b.state = a.state
  offT : b.offT = a.offT
  offA : b.offA = a.offA
  w : b.w = a.w
  c : b.c = a.c
  cRem : b.cRem = a.cRem
  join : b.join = a.join
  hold : b.hold = a.hold
  s : b.s = a.s
  s1 : b.s1 = a.s1
  s2 : b.s2 = a.s2

theorem Alike.motion {c d : Channel} (h : Alike c d) : SameMotion c d := by
  unfold Alike at h
  rw [h]
  constructor <;> rfl

theorem follow_active {c : Channel} (active : c.state = .active) : c.follow = { c with fresh := false } := by
  simp only [Channel.follow, active]

theorem follow_offA (c : Channel) : c.follow.offA = c.offA := by
  unfold Channel.follow
  split <;> rfl

/-- An ACTIVE channel moves no further behind the stage. -/
theorem Leaves.motion {i : Fin 4} {v t : State} (h : Leaves i v t) {k : Fin 12}
    (active : Channel.activeOf i v.gu.channels[k] = true) : SameMotion v.gu.channels[k] t.gu.channels[k] := by
  obtain ⟨member, on⟩ := activeOf_iff.1 active
  have alike := h.channel k member
  rw [follow_active on] at alike
  obtain ⟨⟩ := alike.motion
  constructor <;> assumption

theorem Leaves.offA {i : Fin 4} {v t : State} (h : Leaves i v t) {k : Fin 12} (member : v.gu.channels[k].sect = some i) :
    t.gu.channels[k].offA = v.gu.channels[k].offA :=
  (h.channel k member).motion.offA.trans (follow_offA _)

/-- The completion test stands between a stage and what is behind it, and touches no channel. -/
theorem Leaves.motion_completed {i : Fin 4} {z t : State} (h : Leaves i (completeEngage i z) t) {k : Fin 12}
    (active : Channel.activeOf i z.gu.channels[k] = true) : SameMotion z.gu.channels[k] t.gu.channels[k] := by
  rw [← completeEngage_channels i z] at active ⊢
  exact h.motion active

theorem Leaves.offA_completed {i : Fin 4} {z t : State} (h : Leaves i (completeEngage i z) t) {k : Fin 12}
    (member : z.gu.channels[k].sect = some i) : t.gu.channels[k].offA = z.gu.channels[k].offA := by
  rw [← completeEngage_channels i z] at member ⊢
  exact h.offA member

theorem shift_active {c : Channel} (active : c.state = .active) : c.shift = { c with s2 := c.s1, s1 := c.s } := by
  unfold Channel.shift
  rw [if_neg (by rw [active]; decide)]

/-- R32: of an ACTIVE channel the setpoint history alone has moved ahead of the stage. -/
theorem Enters.motion {i : Fin 4} {s u : State} (h : Enters i s u) {k : Fin 12} (member : s.gu.channels[k].sect = some i)
    (active : s.gu.channels[k].state = .active) :
    SameMotion { s.gu.channels[k] with s2 := s.gu.channels[k].s1, s1 := s.gu.channels[k].s } u.gu.channels[k] :=
  shift_active active ▸ (h.channel k member).motion

theorem shift_state (c : Channel) : c.shift.state = c.state := by
  unfold Channel.shift
  split <;> rfl

theorem shift_offsets (c : Channel) : c.shift.offA = c.offA ∧ c.shift.offT = c.offT := by
  unfold Channel.shift
  split <;> exact ⟨rfl, rfl⟩

theorem Enters.offsets {i : Fin 4} {s u : State} (h : Enters i s u) {k : Fin 12} (member : s.gu.channels[k].sect = some i) :
    u.gu.channels[k].offA = s.gu.channels[k].offA ∧ u.gu.channels[k].offT = s.gu.channels[k].offT := by
  have motion := (h.channel k member).motion
  obtain ⟨offA, offT⟩ := shift_offsets s.gu.channels[k]
  exact ⟨motion.offA.trans offA, motion.offT.trans offT⟩

theorem Enters.activeOf_iff {i : Fin 4} {s u : State} (h : Enters i s u) (k : Fin 12) :
    Channel.activeOf i u.gu.channels[k] = true ↔ s.gu.channels[k].state = .active ∧ s.gu.channels[k].sect = some i := by
  rw [Machine.activeOf_iff, h.belongs, and_comm]
  refine and_congr_left fun member => ?_
  rw [(h.channel k member).motion.state, shift_state]

/-! ### The completion seen from before and behind the event -/

/-- What a stage has done when its completion test comes: no other section, no record, and no channel's part in the section has
changed, and every ACTIVE channel of it has joined. -/
structure Staged (i : Fin 4) (u z : State) : Prop where
  others : ∀ j : Fin 4, j ≠ i → z.gu.sections[j] = u.gu.sections[j]
  records : z.wc.records = u.wc.records
  active : ∀ k : Fin 12, Channel.activeOf i z.gu.channels[k] = Channel.activeOf i u.gu.channels[k]
  joined : ∀ k : Fin 12, Channel.activeOf i z.gu.channels[k] = true → z.gu.channels[k].join = false

/-- R36 over the whole event: whether the ENGAGE of section `i` completes, and how its cell ends. -/
structure EngageDecided (i : Fin 4) (s t : State) (x : Sect) : Prop where
  sect : t.gu.sections[i] = { x with state := t.gu.sections[i].state, engageCell := t.gu.sections[i].engageCell }
  state : t.gu.sections[i].state = .engaging ∨ t.gu.sections[i].state = .engaged
  engaged : t.gu.sections[i].state = .engaged ↔ ∀ k : Fin 12, s.gu.channels[k].state = .active →
    s.gu.channels[k].sect = some i → t.gu.channels[k].c = 0
  waits : t.gu.sections[i].state = .engaging → t.gu.sections[i].engageCell = x.engageCell
  ends : t.gu.sections[i].state = .engaged → t.gu.sections[i].engageCell = none
    ∧ ∀ e, OnlyEngage s i e → x.engageCell = some e → EndsWith s t e (resultOk (le32 x.relPhi ++ leBytes 2 x.relR))

theorem OnlyEngage.notElsewhere {s : State} {i : Fin 4} {e : Fin 16} (h : OnlyEngage s i e) : NotElsewhere i s e :=
  fun j ne w => w.elim ((h.2 j).1 ne) (h.2 j).2

theorem EndsWith.of_records {s z v t : State} {e : Fin 16} {r : Result} (h : EndsWith z v e r)
    (before : z.wc.records[e] = s.wc.records[e]) (behind : t.wc.records[e] = v.wc.records[e]) : EndsWith s t e r := by
  intro x hx
  rw [behind]
  exact h x (before.trans hx)

theorem engageDecided {i : Fin 4} {s u z t : State} (enters : Enters i s u) (staged : Staged i u z)
    (leaves : Leaves i (completeEngage i z) t) (engaging : z.gu.sections[i].state = .engaging)
    (related : z.gu.sections[i].mark = false) : EngageDecided i s t z.gu.sections[i] := by
  have decided := completeEngage_completed engaging related staged.joined
  have sect : t.gu.sections[i] = (completeEngage i z).gu.sections[i] :=
    leaves.sect fun jogging => by
      rcases decided.state with h | h <;> rw [jogging] at h <;> cases h
  refine ⟨by rw [sect]; exact decided.sect, by rw [sect]; exact decided.state, ?_, by rw [sect]; exact decided.waits, ?_⟩
  · have difference (k : Fin 12) (active : Channel.activeOf i z.gu.channels[k] = true) :
        t.gu.channels[k].c = z.gu.channels[k].c := (leaves.motion_completed active).c
    rw [sect, decided.engaged]
    constructor
    · intro up k on member
      have active := (staged.active k).trans ((enters.activeOf_iff k).2 ⟨on, member⟩)
      exact (difference k active).trans (up k active)
    · intro up k active
      obtain ⟨on, member⟩ := (enters.activeOf_iff k).1 ((staged.active k).symm.trans active)
      exact (difference k active).symm.trans (up k on member)
  · rw [sect]
    intro done
    obtain ⟨cleared, ends⟩ := decided.ends done
    refine ⟨cleared, fun e only waits => ?_⟩
    obtain ⟨free, kept⟩ := enters.cell e only.notElsewhere
    have free' : NotElsewhere i (completeEngage i z) e := fun j ne w => free j ne (by
      rwa [completeEngage_sections_ne ne, staged.others j ne] at w)
    exact (ends e waits).of_records (by rw [staged.records, kept]) (leaves.cell e free')

end Sys2Proof.Machine
end

section
/-! PROOFS. O21 and O23: the stages of an ENGAGED and of an ENGAGING section (R27, R28, R30, R31, R34, R35), each up to its
completion test, and what the compute event therefore leaves of the section and its channels. -/

namespace Sys2Proof.Machine

/-! ### Arithmetic of the stages -/

theorem word_posOf_add (a : Word) (z : Int) : word (posOf a + z) = a + BitVec.ofInt 32 z := by
  unfold word posOf
  rw [BitVec.ofInt_add, BitVec.ofInt_natCast, BitVec.ofNat_toNat, BitVec.setWidth_eq]

theorem posDiff_eq_toInt (a b : Word) : posDiff a b = (a - b).toInt := by
  have ha := a.isLt
  have hb := b.isLt
  simp only [posDiff, asSigned32, posOf, BitVec.toInt_eq_toNat_cond, BitVec.toNat_sub]
  split <;> omega

theorem moveToward_eq_towards (x target : Int) (step : Nat) : moveToward x target step = towards x target step := by
  unfold moveToward towards
  split <;> split <;> omega

/-- The quotient and the rest of a division by a positive number, as the rules write them (R27, R34). -/
theorem ediv_rest {m : Nat} (hm : 0 < m) (p : Int) : (m : Int) * (p / m) ≤ p ∧ p < (m : Int) * (p / m) + m
    ∧ ((p % m).toNat : Int) = p - p / m * m := by
  have pos : (0 : Int) < m := by omega
  have split := Int.mul_ediv_add_emod p m
  have low := Int.emod_nonneg p (Int.ne_of_gt pos)
  have high := Int.emod_lt_of_pos p pos
  rw [Int.toNat_of_nonneg low, Int.mul_comm (p / (m : Int))]
  omega

/-- R35: the engage difference splits into whole revolutions and a rest within half a revolution. -/
theorem foldRevolution_spec (d : Int) :
    (d - foldRevolution d) % 1048576 = 0 ∧ -524288 ≤ foldRevolution d ∧ foldRevolution d < 524288 := by
  unfold foldRevolution
  omega

/-- R30: the catch-up step neither passes 0 nor leads away from it. -/
theorem catchUp_toward_zero (c : Int) (r ms : Nat) :
    (c - max (-(ms : Int)) (min (ms : Int) (c.tdiv r))).natAbs ≤ c.natAbs
      ∧ 0 ≤ (c - max (-(ms : Int)) (min (ms : Int) (c.tdiv r))) * c := by
  rcases Int.le_total 0 c with h | h
  · have low := Int.tdiv_nonneg h (Int.natCast_nonneg r)
    have high := Int.tdiv_le_self (r : Int) h
    exact ⟨by omega, Int.mul_nonneg (by omega) h⟩
  · have low := Int.tdiv_nonneg (Int.neg_nonneg_of_nonpos h) (Int.natCast_nonneg r)
    have high := Int.tdiv_le_self (r : Int) (Int.neg_nonneg_of_nonpos h)
    rw [Int.neg_tdiv] at low high
    exact ⟨by omega, Int.mul_nonneg_of_nonpos_of_nonpos (by omega) h⟩

theorem catchUpStep_eq (c : Int) (r ms : Nat) :
    catchUpStep c r ms = max (-(ms : Int)) (min (ms : Int) (c.tdiv (r : Int))) := clampInt_eq_max_min (by omega) _

/-- R35: the engage difference is W + C. -/
theorem differ_sum (x : Sect) (c : Channel) :
    (Channel.differ x c).w + (Channel.differ x c).c = (c.hold - (x.phi + BitVec.ofInt 32 (x.offA + c.offA))).toInt := by
  simp only [Channel.differ, ← posDiff_eq_toInt, ← word_posOf_add]
  rw [Int.sub_add_cancel, Int.add_assoc]

theorem differ_split (x : Sect) (c : Channel) : (Channel.differ x c).w % 1048576 = 0
    ∧ -524288 ≤ (Channel.differ x c).c ∧ (Channel.differ x c).c < 524288 := foldRevolution_spec _

/-- R31: the setpoint of a geared channel. -/
theorem geared_s (x : Sect) (c : Channel) :
    (Channel.geared x c).s = x.phi + BitVec.ofInt 32 (x.offA + c.offA + c.w + c.c) := by
  simp only [Channel.geared, ← word_posOf_add, Int.add_assoc]

/-! ### The stage of an ENGAGED section, or of an ENGAGING one with its relation set (R27, R28, R30, R31, R35) -/

/-- The stage up to its completion test. -/
def gearedAhead (i : Fin 4) (delta : Int) (s : State) : State :=
  let s := modSect i (fun x => Sect.slew (Sect.increment delta x)) s
  let x := s.gu.sections[i]
  let s := mapChannels (fun _ c => if Channel.isOf i c then Channel.slew x.trimStep c else c) s
  onActive i (fun c => if c.join then Channel.differ x c else Channel.geared x (Channel.catchUp x c)) s

theorem stageGeared_eq (i : Fin 4) (delta : Int) (s : State) :
    stageGeared i delta s = completeEngage i (gearedAhead i delta s) := rfl

theorem gearedAhead_sect (i : Fin 4) (delta : Int) (s : State) :
    (gearedAhead i delta s).gu.sections[i] = Sect.slew (Sect.increment delta s.gu.sections[i]) := by
  simp only [gearedAhead, onActive, mapChannels_gu, modSect_gu, modV_get, if_true]

/-- What the stage makes of a channel of its section `x`. -/
def Channel.gearedAhead (x : Sect) (c : Channel) : Channel :=
  let c := Channel.slew x.trimStep c
  if c.state = .active then if c.join then Channel.differ x c else Channel.geared x (Channel.catchUp x c) else c

theorem gearedAhead_channel {i : Fin 4} {s : State} {k : Fin 12} (delta : Int) (member : s.gu.channels[k].sect = some i) :
    (gearedAhead i delta s).gu.channels[k]
      = s.gu.channels[k].gearedAhead (Sect.slew (Sect.increment delta s.gu.sections[i])) := by
  have own : Channel.isOf i s.gu.channels[k] = true := decide_eq_true member
  have own' (n : Nat) : Channel.isOf i (Channel.slew n s.gu.channels[k]) = true := own
  simp only [Machine.gearedAhead, Channel.gearedAhead, onActive, mapChannels_gu, modSect_gu, mapV_get, modV_get, if_true,
    own, own', Channel.activeOf, Bool.true_and, decide_eq_true_eq]

theorem gearedAhead_channel_other {i : Fin 4} {s : State} {k : Fin 12} (delta : Int) (other : s.gu.channels[k].sect ≠ some i) :
    (gearedAhead i delta s).gu.channels[k] = s.gu.channels[k] := by
  have not : Channel.isOf i s.gu.channels[k] = false := decide_eq_false other
  simp only [Machine.gearedAhead, onActive, mapChannels_gu, modSect_gu, mapV_get, modV_get, not, Channel.activeOf,
    Bool.false_and, Bool.false_eq_true, if_false]

/-- The stage leaves a channel in its section and its state. -/
theorem gearedAhead_place (x : Sect) (c : Channel) : (c.gearedAhead x).sect = c.sect ∧ (c.gearedAhead x).state = c.state := by
  unfold Channel.gearedAhead
  dsimp only
  split
  · split <;> exact ⟨rfl, rfl⟩
  · exact ⟨rfl, rfl⟩

theorem gearedAhead_active {i : Fin 4} {s : State} (delta : Int) (k : Fin 12) :
    Channel.activeOf i (gearedAhead i delta s).gu.channels[k] = Channel.activeOf i s.gu.channels[k] := by
  by_cases member : s.gu.channels[k].sect = some i
  · rw [gearedAhead_channel delta member]
    simp only [Channel.activeOf, Channel.isOf, gearedAhead_place]
  · rw [gearedAhead_channel_other delta member]

/-- A joining channel takes its engage difference (R35). -/
theorem gearedAhead_joins (x : Sect) {c : Channel} (active : c.state = .active) (join : c.join = true) :
    c.gearedAhead x = Channel.differ x (Channel.slew x.trimStep c) := by
  have active' : (Channel.slew x.trimStep c).state = .active := active
  have join' : (Channel.slew x.trimStep c).join = true := join
  simp only [Channel.gearedAhead, active', join', if_true]

/-- Every other ACTIVE channel takes a catch-up step (R30). -/
theorem gearedAhead_catchesUp (x : Sect) {c : Channel} (active : c.state = .active) (join : c.join = false) :
    c.gearedAhead x = Channel.geared x (Channel.catchUp x (Channel.slew x.trimStep c)) := by
  have active' : (Channel.slew x.trimStep c).state = .active := active
  have join' : (Channel.slew x.trimStep c).join = false := join
  simp only [Channel.gearedAhead, active', join', if_true, Bool.false_eq_true, if_false]

theorem gearedAhead_join (x : Sect) {c : Channel} (active : c.state = .active) : (c.gearedAhead x).join = false := by
  cases join : c.join with
  | true => rw [gearedAhead_joins x active join]; rfl
  | false => rw [gearedAhead_catchesUp x active join]; exact join

theorem gearedAhead_offA (x : Sect) (c : Channel) : (c.gearedAhead x).offA = towards c.offA c.offT x.trimStep := by
  rw [← moveToward_eq_towards]
  unfold Channel.gearedAhead
  dsimp only
  split
  · split <;> rfl
  · rfl

theorem gearedAhead_staged (i : Fin 4) (delta : Int) (s : State) : Staged i s (gearedAhead i delta s) where
  others j ne := by simp only [gearedAhead, onActive, mapChannels_gu, modSect_gu, modV_get, if_neg ne]
  records := rfl
  active := gearedAhead_active delta
  joined k active := by
    rw [gearedAhead_active] at active
    obtain ⟨member, on⟩ := activeOf_iff.1 active
    rw [gearedAhead_channel delta member]
    exact gearedAhead_join _ on

/-- The stage of an ENGAGED section, or of an ENGAGING one without its mark. -/
theorem stageSection_geared {i : Fin 4} {s : State} (delta : Int) (h : s.gu.sections[i].state = .engaged
    ∨ (s.gu.sections[i].state = .engaging ∧ s.gu.sections[i].mark = false)) :
    stageSection delta i s = completeEngage i (gearedAhead i delta s) := by
  unfold stageSection
  rcases h with h | ⟨h, mark⟩
  · simp only [h, stageGeared_eq]
  · simp only [h, mark, Bool.false_eq_true, if_false, stageGeared_eq]

/-! ### The stage that sets the engage relation (R34, R35) -/

/-- The stage up to its completion test. -/
def relatedAhead (i : Fin 4) (s : State) : State :=
  let s := modSect i (Sect.relate s.gu.thetaX) s
  onActive i (Channel.differ s.gu.sections[i]) s

theorem stageSection_related {i : Fin 4} {s : State} (delta : Int) (engaging : s.gu.sections[i].state = .engaging)
    (mark : s.gu.sections[i].mark = true) : stageSection delta i s = completeEngage i (relatedAhead i s) := by
  unfold stageSection
  simp only [engaging, mark, if_true]
  rfl

theorem relatedAhead_sect (i : Fin 4) (s : State) :
    (relatedAhead i s).gu.sections[i] = Sect.relate s.gu.thetaX s.gu.sections[i] := by
  simp only [relatedAhead, onActive, mapChannels_gu, modSect_gu, modV_get, if_true]

theorem relatedAhead_channel (i : Fin 4) (s : State) (k : Fin 12) :
    (relatedAhead i s).gu.channels[k] = if Channel.activeOf i s.gu.channels[k] then
      Channel.differ (Sect.relate s.gu.thetaX s.gu.sections[i]) s.gu.channels[k] else s.gu.channels[k] := by
  simp only [relatedAhead, onActive, mapChannels_gu, modSect_gu, mapV_get, modV_get, if_true]

theorem relatedAhead_active (i : Fin 4) (s : State) (k : Fin 12) :
    Channel.activeOf i (relatedAhead i s).gu.channels[k] = Channel.activeOf i s.gu.channels[k] := by
  rw [relatedAhead_channel]
  split <;> rfl

theorem relatedAhead_staged (i : Fin 4) (s : State) : Staged i s (relatedAhead i s) where
  others j ne := by simp only [relatedAhead, onActive, mapChannels_gu, modSect_gu, modV_get, if_neg ne]
  records := rfl
  active := relatedAhead_active i s
  joined k active := by
    rw [relatedAhead_active] at active
    rw [relatedAhead_channel, if_pos active]
    rfl

/-! ### The stages in the terms of the rules -/

/-- R27, R28: a section's exact increment and the step of its offset, whatever the completion test made of it. -/
theorem advanced_sect {x y : Sect} {delta : Int} (below : x.r < x.m)
    (h : y = { Sect.slew (Sect.increment delta x) with state := y.state, engageCell := y.engageCell }) :
    let p : Int := delta * x.n + (x.r : Int)
    (x.m : Int) * y.q ≤ p ∧ p < (x.m : Int) * y.q + (x.m : Int) ∧ (y.r : Int) = p - y.q * (x.m : Int)
      ∧ y.phi = x.phi + BitVec.ofInt 32 y.q ∧ y.offA = towards x.offA x.offT x.trimStep
      ∧ y = { x with q := y.q, r := y.r, phi := y.phi, offA := y.offA, state := y.state, engageCell := y.engageCell } := by
  obtain ⟨low, high, rest⟩ := ediv_rest (Nat.zero_lt_of_lt below) (delta * x.n + (x.r : Int))
  rw [h]
  exact ⟨low, high, rest, word_posOf_add _ _, moveToward_eq_towards _ _ _, rfl⟩

/-- R34: a section's φ and r from the position extrapolated, whatever the completion test made of it. -/
theorem related_sect {x y : Sect} {thetaX : Word} (below : x.r < x.m)
    (h : y = { Sect.relate thetaX x with state := y.state, engageCell := y.engageCell }) :
    let p : Int := ((thetaX - x.base).toNat : Int) * x.n
    ∃ f : Int, (x.m : Int) * f ≤ p ∧ p < (x.m : Int) * f + (x.m : Int)
      ∧ y.phi = BitVec.ofInt 32 f ∧ (y.r : Int) = p - f * (x.m : Int) ∧ y.q = 0 ∧ y.mark = false
      ∧ y.relPhi = y.phi ∧ y.relR = y.r
      ∧ y = { x with phi := y.phi, r := y.r, q := y.q, mark := y.mark, relPhi := y.relPhi, relR := y.relR, state := y.state
                     engageCell := y.engageCell }
      ∧ y.offA = x.offA := by
  obtain ⟨low, high, rest⟩ := ediv_rest (Nat.zero_lt_of_lt below) (((thetaX - x.base).toNat : Int) * x.n)
  rw [h]
  exact ⟨_, low, high, rfl, rest, rfl, rfl, rfl, rfl, rfl, rfl⟩

/-- R30, R31: the catch-up step of an ACTIVE channel that is not to join. -/
theorem caughtUp_channel {x : Sect} {c b d : Channel} (before : SameMotion { c with s2 := c.s1, s1 := c.s } b)
    (behind : SameMotion (b.gearedAhead x) d) (active : c.state = .active) (join : c.join = false) :
    let step : Int := max (-(x.maxStep : Int)) (min (x.maxStep : Int) (c.c.tdiv (c.cRem : Int)))
    d.c = c.c - step ∧ d.cRem = max (c.cRem - 1) 1 ∧ d.c.natAbs ≤ c.c.natAbs ∧ 0 ≤ d.c * c.c
      ∧ d.s = x.phi + BitVec.ofInt 32 (x.offA + d.offA + d.w + d.c) ∧ d.w = c.w ∧ d.s1 = c.s ∧ d.s2 = c.s1
      ∧ d.state = .active := by
  rw [gearedAhead_catchesUp x (before.state.trans active) (before.join.trans join)] at behind
  have difference : d.c = b.c - catchUpStep b.c b.cRem x.maxStep := behind.c
  rw [catchUpStep_eq, before.c, before.cRem] at difference
  have remaining : d.cRem = max (b.cRem - 1) 1 := behind.cRem
  rw [before.cRem] at remaining
  have setpoint := behind.s.trans (geared_s _ _)
  refine ⟨difference, remaining, ?_, ?_, ?_, behind.w.trans before.w, behind.s1.trans before.s1, behind.s2.trans before.s2,
    behind.state.trans (before.state.trans active)⟩
  · rw [difference]; exact (catchUp_toward_zero _ _ _).1
  · rw [difference]; exact (catchUp_toward_zero _ _ _).2
  · rw [setpoint, behind.offA, behind.w, behind.c]; rfl

/-- R35: an ACTIVE channel with its engage difference. -/
theorem differed_channel {x : Sect} {b d : Channel} (behind : SameMotion (Channel.differ x b) d) :
    d.w + d.c = (b.hold - (x.phi + BitVec.ofInt 32 (x.offA + d.offA))).toInt
      ∧ d.w % 1048576 = 0 ∧ -524288 ≤ d.c ∧ d.c < 524288 ∧ d.cRem = x.k ∧ d.join = false ∧ d.s = b.hold := by
  obtain ⟨whole, low, high⟩ := differ_split x b
  rw [behind.offA, behind.w, behind.c]
  exact ⟨differ_sum x b, whole, low, high, behind.cRem, behind.join, behind.s⟩

/-! ### O21 -/

section
variable {i : Fin 4} {s u t : State} {delta : Int} (enters : Enters i s u)
  (leaves : Leaves i (completeEngage i (gearedAhead i delta u)) t)
include enters leaves

/-- The section behind the event, as its completion test left it. -/
theorem geared_sect (still : u.gu.sections[i] = s.gu.sections[i])
    (geared : s.gu.sections[i].state = .engaged ∨ (s.gu.sections[i].state = .engaging ∧ s.gu.sections[i].mark = false)) :
    (s.gu.sections[i].state = .engaged → t.gu.sections[i] = Sect.slew (Sect.increment delta s.gu.sections[i]))
      ∧ (s.gu.sections[i].state = .engaging → EngageDecided i s t (Sect.slew (Sect.increment delta s.gu.sections[i]))) := by
  have ahead := gearedAhead_sect i delta u
  rw [still] at ahead
  constructor
  · intro engaged
    have state : (gearedAhead i delta u).gu.sections[i].state = .engaged := by rw [ahead]; exact engaged
    rw [completeEngage_other (by rw [state]; decide)] at leaves
    rw [leaves.sect (by rw [state]; decide), ahead]
  · intro engaging
    have mark : s.gu.sections[i].mark = false := by
      rcases geared with h | ⟨-, h⟩
      · cases engaging.symm.trans h
      · exact h
    rw [← ahead]
    exact engageDecided enters (gearedAhead_staged i delta u) leaves (by rw [ahead]; exact engaging)
      (by rw [ahead]; exact mark)

/-- An ACTIVE channel behind the event. -/
theorem geared_motion {k : Fin 12} (member : s.gu.channels[k].sect = some i) (active : s.gu.channels[k].state = .active) :
    SameMotion (u.gu.channels[k].gearedAhead (Sect.slew (Sect.increment delta u.gu.sections[i]))) t.gu.channels[k] := by
  rw [← gearedAhead_channel delta ((enters.belongs k).trans member)]
  exact leaves.motion_completed ((gearedAhead_active delta k).trans ((enters.activeOf_iff k).2 ⟨active, member⟩))

theorem geared_offA {k : Fin 12} (member : s.gu.channels[k].sect = some i) :
    t.gu.channels[k].offA = towards s.gu.channels[k].offA s.gu.channels[k].offT u.gu.sections[i].trimStep := by
  have belongs := (enters.belongs k).trans member
  have ahead := gearedAhead_channel delta belongs
  obtain ⟨offA, offT⟩ := enters.offsets member
  rw [leaves.offA_completed (by rw [ahead, (gearedAhead_place _ _).1, belongs]), ahead, gearedAhead_offA, offA, offT]
  rfl

end

/-- Settles O21: ahead of the stage the section and the engage state of its channels stand, the stage's arithmetic gives the
increment, the catch-up steps and the engage differences, and the completion test alone decides the rest. -/
theorem engagedStages : Obligations.EngagedStages := by
  unfold Obligations.EngagedStages
  intro now lineFree s i comes runs below geared
  obtain ⟨u, t, answers, enters, leaves, -⟩ := compute_stage lineFree i comes runs
  have still : u.gu.sections[i] = s.gu.sections[i] := enters.sect fun jogging => by
    rcases geared with h | ⟨h, -⟩ <;> cases jogging.symm.trans h
  rw [stageSection_geared _ (by rwa [still])] at leaves
  obtain ⟨wasEngaged, wasEngaging⟩ := geared_sect enters leaves still geared
  have sect : t.gu.sections[i] = { Sect.slew (Sect.increment t.gu.delta s.gu.sections[i]) with
      state := t.gu.sections[i].state, engageCell := t.gu.sections[i].engageCell } := by
    rcases geared with h | ⟨h, -⟩
    · rw [wasEngaged h]
    · exact (wasEngaging h).sect
  obtain ⟨low, high, rest, phi, offA, frame⟩ := advanced_sect (below i) sect
  refine ⟨t, answers, ⟨low, high, rest, phi, offA, ?_, frame, fun h => ?_, fun h => ?_⟩, fun k member => ?_⟩
  · rcases geared with h | ⟨h, -⟩
    · right; rw [wasEngaged h]; exact h
    · exact (wasEngaging h).state
  · rw [wasEngaged h]; exact ⟨h, rfl⟩
  · have decided := wasEngaging h
    exact ⟨decided.engaged, decided.waits, fun e => ⟨(decided.ends e).1, fun c only => (decided.ends e).2 c only only.1⟩⟩
  · have sameSect : t.gu.sections[i].phi = (Sect.slew (Sect.increment t.gu.delta s.gu.sections[i])).phi
        ∧ t.gu.sections[i].offA = (Sect.slew (Sect.increment t.gu.delta s.gu.sections[i])).offA := by
      rw [sect]; exact ⟨rfl, rfl⟩
    have offset := geared_offA enters leaves member
    rw [still] at offset
    refine ⟨offset, fun active join => ?_, fun active join => ?_⟩
    all_goals
      have before := enters.motion member active
      have behind := geared_motion enters leaves member active
      rw [still] at behind
      rw [sameSect.1, sameSect.2]
    · exact caughtUp_channel before behind active join
    · rw [gearedAhead_joins _ (before.state.trans active) (before.join.trans join)] at behind
      obtain ⟨sum, whole, least, most, remaining, joined, setpoint⟩ := differed_channel behind
      rw [show (Channel.slew _ u.gu.channels[k]).hold = s.gu.channels[k].hold from before.hold] at sum setpoint
      exact ⟨sum, whole, least, most, remaining, joined, setpoint, behind.s1.trans before.s1, behind.s2.trans before.s2,
        behind.state.trans (before.state.trans active)⟩

/-! ### O23 -/

section
variable {i : Fin 4} {s u t : State} (enters : Enters i s u) (leaves : Leaves i (completeEngage i (relatedAhead i u)) t)
include enters leaves

theorem related_offA {k : Fin 12} (member : s.gu.channels[k].sect = some i) :
    t.gu.channels[k].offA = s.gu.channels[k].offA := by
  have place : (relatedAhead i u).gu.channels[k].sect = u.gu.channels[k].sect
      ∧ (relatedAhead i u).gu.channels[k].offA = u.gu.channels[k].offA := by
    rw [relatedAhead_channel]
    split <;> exact ⟨rfl, rfl⟩
  rw [leaves.offA_completed (by rw [place.1, enters.belongs, member]), place.2, (enters.offsets member).1]

/-- An ACTIVE channel behind the event. -/
theorem related_motion {k : Fin 12} (member : s.gu.channels[k].sect = some i) (active : s.gu.channels[k].state = .active) :
    SameMotion (Channel.differ (Sect.relate u.gu.thetaX u.gu.sections[i]) u.gu.channels[k]) t.gu.channels[k] := by
  have on := (enters.activeOf_iff k).2 ⟨active, member⟩
  have ahead := relatedAhead_channel i u k
  rw [if_pos on] at ahead
  rw [← ahead]
  exact leaves.motion_completed ((relatedAhead_active i u k).trans on)

end

/-- Settles O23: the stage of a section with its engage mark sets φ and r and the engage differences, then tests them for 0. -/
theorem engageRelation : Obligations.EngageRelation := by
  unfold Obligations.EngageRelation
  intro now lineFree s i comes runs below engaging mark
  obtain ⟨u, t, answers, enters, leaves, thetaX⟩ := compute_stage lineFree i comes runs
  have still : u.gu.sections[i] = s.gu.sections[i] := enters.sect fun jogging => by cases engaging.symm.trans jogging
  rw [stageSection_related _ (by rwa [still]) (by rwa [still])] at leaves
  have ahead := relatedAhead_sect i u
  rw [still, ← thetaX] at ahead
  have decided := engageDecided enters (relatedAhead_staged i u) leaves (by rw [ahead]; exact engaging) (by rw [ahead]; rfl)
  rw [ahead] at decided
  have same : t.gu.sections[i].phi = (Sect.relate t.gu.thetaX s.gu.sections[i]).phi
      ∧ t.gu.sections[i].r = (Sect.relate t.gu.thetaX s.gu.sections[i]).r := by
    rw [decided.sect]; exact ⟨rfl, rfl⟩
  obtain ⟨f, low, high, phi, rest, q, cleared, relPhi, relR, frame, offA⟩ := related_sect (below i) decided.sect
  refine ⟨t, answers, ⟨f, low, high, phi, rest, q, cleared, relPhi, relR, frame, offA, decided.state, decided.engaged,
    decided.waits, fun e => ⟨(decided.ends e).1, fun c only => ?_⟩⟩, fun k member => ?_⟩
  · have ends := (decided.ends e).2 c only only.1
    rwa [same.1, same.2]
  · have offset := related_offA enters leaves member
    refine ⟨offset, fun active => ?_⟩
    have behind := related_motion enters leaves member active
    rw [still, ← thetaX] at behind
    have differed := differed_channel behind
    rw [offset, (enters.motion member active).hold] at differed
    rw [same.1]
    exact differed

end Sys2Proof.Machine
end
